-- ==== Sys2Proof/Word.lean ====
section
/-! DEFINITION. The word types of the PK-418: link bytes, stroke port words and link fields. -/

namespace Sys2Proof

/-- A byte on a link (R169, R187). -/
abbrev Byte := BitVec 8

/-- A stroke port word, or a two-byte field of a link payload (R187). -/
abbrev Word := BitVec 16

/-- A four-byte field of a link payload (R187). -/
abbrev Long := BitVec 32

end Sys2Proof
end

