-- ==== Sys2Proof/Config.lean ====
section
/-! DEFINITION. What one PK-418 fixes: the sizes of its stores and the limits of its counters.
The specification leaves no result of a command undefined, so there is no free value here. -/

namespace Sys2Proof.Config

/-- The greatest frame time, in beam ticks (R1). -/
def frameTimeLimit : Nat := 10000000

/-- Beam ticks in one millisecond (0.5: 10 MHz; R14, R71). -/
def ticksPerMs : Nat := 10000

/-- Places of the intake FIFO (R4). -/
def fifoSize : Nat := 16

/-- Places of the stroke history's ring (R48). -/
def ringSize : Nat := 512

/-- The element count stays here once it has reached it (R52). -/
def elementLimit : Nat := 4096

/-- Places of the change list (R36). -/
def changeListSize : Nat := 48

/-- Places of the echo list (R44). -/
def echoListSize : Nat := 4

/-- Places of the waiting-hits list (R70). -/
def waitingSize : Nat := 4

/-- Consecutive floods at which the pen is muted (R67, R68). -/
def floodsToMute : Nat := 6

/-- Candidate records kept of one hit (R82). -/
def candidateCap : Nat := 4

/-- The whole weight of one hit (R87). -/
def hitWeight : Nat := 12

/-- Places of the candidate tally (R108). -/
def tallySize : Nat := 8

/-- Entries an AMBIGUOUS outcome lists at most (R114). -/
def ambiguousCap : Nat := 4

/-- Places of the pick filter list (R122). -/
def filterListSize : Nat := 32

/-- Places of a page stack (R134). -/
def stackSize : Nat := 8

/-- Places of the dwell frame sums (R140). -/
def frameSumsSize : Nat := 8

/-- Frames of an inbound buffer (R172). -/
def inboundSize : Nat := 2

/-- Notices of a notice queue (R175). -/
def noticeQueueSize : Nat := 32

/-- Greatest LEN of a link frame (R170). -/
def payloadLimit : Nat := 60

/-- A gap of more than this many beam ticks ends a frame with SHORT (R170: 5 ms). -/
def gapLimit : Nat := 50000

/-- The greatest value of a statistics counter and of a score (R181, R108). -/
def counterLimit : Nat := 65535

/-- The cross segment's number (R23). -/
def crossSegment : Nat := 1023

/-- The greatest loft coordinate in magnitude (R165). -/
def loftLimit : Int := 2147483647

end Sys2Proof.Config
end

