-- ==== Sys2Proof/Syntax.lean ====
section
/-! DEFINITION. The commands of the PK-418: one constructor of `Instr` per row of spec/opcode_table.json.

Every command that the surroundings of the part time carries `dt`, the beam ticks that pass between the command before
it and itself (log 2). The commands of the links carry their link and the raw fields of their payload (12.3). -/

namespace Sys2Proof

/-- The two links (0.5): link 0 is the computer link, link 1 the console link. -/
inductive Link where
  | link0
  | link1
  deriving DecidableEq, Repr

/-- The line rates the two strap pins choose between (R169). -/
inductive LineRate where
  | r9600
  | r19200
  | r38400
  | r76800
  deriving DecidableEq, Repr

/-- A level of the tip switch line (R60). -/
inductive TipLevel where
  | up
  | down
  deriving DecidableEq, Repr

/-- Why a received frame failed (R170, R171). -/
inductive FailReason where
  | sync
  | length
  | check
  | short
  deriving DecidableEq, Repr

/-- One block's work on the report that a frame's hits are complete (R79). -/
inductive FrameEndTask where
  | penReckoning
  | crossUpdate
  | resolverCount
  | menuDwell
  deriving DecidableEq, Repr

/-- An order of the four frame-end tasks, which the rules leave open (R79, R106, R141, R158): the cross update's place
beside the resolver's count, then the pen's place among these, then the menu's. All 24 orders are there (log 5). -/
structure FrameEndOrder where
  cross : Fin 2
  pen : Fin 3
  menu : Fin 4
  deriving DecidableEq, Repr

/-- Where the menu controller's frame-start work stands beside the directory's, and beside the hand-over of the
directory's result to the resolver (R136: either order; log 5). -/
inductive FrameStartOrder where
  | menuFirst
  | menuBetween
  | menuLast
  deriving DecidableEq, Repr

/-- The order of the directory's, the resolver's and the menu controller's work at the entry into DARK (R105, R136; log 5):
the resolver's place beside the directory, then the menu's among the two. -/
structure DarkOrder where
  resolver : Fin 2
  menu : Fin 3
  deriving DecidableEq, Repr

/-- The two endpoints of a vector, each coordinate a 12-bit field (R188). -/
structure Stroke where
  x0 : BitVec 12
  y0 : BitVec 12
  x1 : BitVec 12
  y1 : BitVec 12
  deriving DecidableEq, Repr

/-- The payload of SEG_DEFINE (12.3). -/
structure SegDefineArgs where
  seg : Word
  cls : Byte
  tag : Word
  switches : Byte
  intensity : Byte
  highlight : Byte
  priority : Byte
  deriving DecidableEq, Repr

/-- The payload of SEG_SET (12.3). -/
structure SegSetArgs where
  seg : Word
  present : Byte
  tag : Word
  switches : Byte
  intensity : Byte
  highlight : Byte
  priority : Byte
  deriving DecidableEq, Repr

/-- The payload of SEG_MENU (12.3). -/
structure SegMenuArgs where
  seg : Word
  page : Byte
  action : Byte
  target : Byte
  notify : Byte
  deriving DecidableEq, Repr

/-- The payload of VIEW_SET (12.3). -/
structure ViewSetArgs where
  orientation : Byte
  ox : Long
  oy : Long
  sc : Long
  deriving DecidableEq, Repr

/-- The payload of FILTER_INSERT (12.3). -/
structure FilterInsertArgs where
  index : Byte
  enabled : Byte
  classMatch : Byte
  segLow : Word
  segHigh : Word
  tagValue : Word
  tagMask : Word
  action : Byte
  arg : Byte
  final : Byte
  deriving DecidableEq, Repr

/-- The payload of PICK_PARAMS (12.3). -/
structure PickParamsArgs where
  l : Word
  w : Byte
  n : Byte
  t : Word
  d : Word
  deriving DecidableEq, Repr

/-- The payload of PEN_PARAMS (12.3). -/
structure PenParamsArgs where
  wmin : Byte
  dd : Word
  f : Byte
  tb : Byte
  deriving DecidableEq, Repr

/-- The payload of PORT_PARAMS (12.3). -/
structure PortParamsArgs where
  h : Byte
  lw : Byte
  ta : Word
  deriving DecidableEq, Repr

/-- The payload of SNAP_SET (12.3). -/
structure SnapSetArgs where
  px : Word
  py : Word
  gx : Long
  gy : Long
  deriving DecidableEq, Repr

/-- A command of the links with the raw fields of its payload, in the order of the message types 01h to 22h (R189, 12.3). -/
inductive LinkCmd where
  | segDefine (a : SegDefineArgs)
  | segSet (a : SegSetArgs)
  | segShare (seg : Word)
  | segRelease (seg : Word)
  | segMenu (a : SegMenuArgs)
  | segQuery (seg : Word)
  | viewSet (a : ViewSetArgs)
  | echoSet (e : Word) (style : Byte)
  | filterInsert (a : FilterInsertArgs)
  | filterDelete (index : Byte)
  | filterEnable (index : Byte) (enabled : Byte)
  | filterRead (index : Byte)
  | pagePush (page : Byte)
  | pageBack
  | pageHome
  | dwellSet (dw : Byte)
  | crossPlace (x : Word) (y : Word)
  | crossPark
  | crossParams (slew : Word) (k : Byte)
  | crossRead
  | portParams (a : PortParamsArgs)
  | penParams (a : PenParamsArgs)
  | penResume
  | pickParams (a : PickParamsArgs)
  | modeSet (mode : Byte)
  | pickCancel
  | snapSet (a : SnapSetArgs)
  | noticeMask (classes : Byte)
  | flagsClear (flags : Word)
  | statsRead (clear : Byte)
  | statusRead
  | ident
  | linkReset (link : Byte)
  | partReset
  deriving DecidableEq, Repr

/-- The commands of the block: one constructor per row of spec/opcode_table.json. -/
inductive Instr where
  /-- FRAME_OPEN (R8, R9): a FRAME-OPEN record is written; the orders say how its open choices fall (log 5). -/
  | frameOpen (dt : Nat) (seq : Byte) (endOrder : FrameEndOrder) (startOrder : FrameStartOrder)
  /-- SEGMENT_OPEN (R11): a SEGMENT-OPEN record is written. -/
  | segmentOpen (dt : Nat) (seg : BitVec 10)
  /-- SEGMENT_CLOSE (R11): a SEGMENT-CLOSE record is written. -/
  | segmentClose (dt : Nat)
  /-- VECTOR (R12): a VECTOR record is written; `span` ticks lie between its first word and its last (R2). -/
  | vector (dt : Nat) (span : Nat) (beam : Bool) (p : Stroke)
  /-- FRAME_CLOSE (R10): a FRAME-CLOSE record is written. -/
  | frameClose (dt : Nat) (endOrder : FrameEndOrder)
  /-- HISTORY_ENTRY (R51): the stroke history takes the oldest FIFO entry. -/
  | historyEntry (dt : Nat)
  /-- ABSENCE_TIMER_EXPIRY (R15): time runs on to the absence timer's expiry. -/
  | absenceTimerExpiry (endOrder : FrameEndOrder) (darkOrder : DarkOrder)
  /-- FRAME_TIME_LIMIT (R1): time runs on until the frame time counter stands at its limit. -/
  | frameTimeLimit
  /-- ANSWER_READ (R3): the generator reads one answer word. -/
  | answerRead (dt : Nat)
  /-- STRAY_WORD (R2, R188): one word is written to the stroke port by itself. -/
  | strayWord (dt : Nat) (w : Word)
  /-- PULSE_LEADING_EDGE (R61): the detection line is found asserted; `enable` is the pen enable line's level. -/
  | pulseLeadingEdge (dt : Nat) (enable : Bool)
  /-- PULSE_END (R63): the detection line is found released. -/
  | pulseEnd (dt : Nat)
  /-- PULSE_QUALIFY (R63): time runs on until the pulse in progress has stood its Wmin ticks. -/
  | pulseQualify
  /-- TIP_LEVEL_CHANGE (R71): the tip switch line shows `level`. -/
  | tipLevelChange (dt : Nat) (level : TipLevel)
  /-- TIP_DEBOUNCE_EXPIRY (R71): time runs on to the debounce timer's expiry. -/
  | tipDebounceExpiry
  /-- LINK_FRAME_COMPLETE (R172): a frame of any content completes on a link. -/
  | linkFrameComplete (dt : Nat) (n : Link) (dir : Bool) (mtype : BitVec 6) (payload : List Byte)
  /-- FRAME_FAILED (R171): a frame being received on a link fails. -/
  | frameFailed (dt : Nat) (n : Link) (reason : FailReason)
  /-- GAP_TIMER_EXPIRY (R170): more than 5 ms pass without a byte while receiving. -/
  | gapTimerExpiry (n : Link)
  /-- TRANSMISSION_END (R174): a link's transmitter finishes its frame. `failFirst` names a failure of a received frame
  that falls together with the emptying of the reply slot and is taken before the next command (R171; log 7). -/
  | transmissionEnd (dt : Nat) (n : Link) (failFirst : Option FailReason)
  /-- UNKNOWN_TYPE (R173): a frame whose message type names no command completes on a link. -/
  | unknownType (dt : Nat) (n : Link) (dir : Bool) (mtype : BitVec 6)
  /-- SEG_DEFINE (R29). -/
  | segDefine (dt : Nat) (n : Link) (a : SegDefineArgs)
  /-- SEG_SET (R30). -/
  | segSet (dt : Nat) (n : Link) (a : SegSetArgs)
  /-- SEG_SHARE (R31). -/
  | segShare (dt : Nat) (n : Link) (seg : Word)
  /-- SEG_RELEASE (R32). -/
  | segRelease (dt : Nat) (n : Link) (seg : Word)
  /-- SEG_MENU (R33). -/
  | segMenu (dt : Nat) (n : Link) (a : SegMenuArgs)
  /-- SEG_QUERY (R35). -/
  | segQuery (dt : Nat) (n : Link) (seg : Word)
  /-- VIEW_SET (R34, R167). -/
  | viewSet (dt : Nat) (n : Link) (a : ViewSetArgs)
  /-- ECHO_SET (R45). -/
  | echoSet (dt : Nat) (n : Link) (e : Word) (style : Byte)
  /-- FILTER_INSERT (R128). -/
  | filterInsert (dt : Nat) (n : Link) (a : FilterInsertArgs)
  /-- FILTER_DELETE (R129). -/
  | filterDelete (dt : Nat) (n : Link) (index : Byte)
  /-- FILTER_ENABLE (R130). -/
  | filterEnable (dt : Nat) (n : Link) (index : Byte) (enabled : Byte)
  /-- FILTER_READ (R131). -/
  | filterRead (dt : Nat) (n : Link) (index : Byte)
  /-- PAGE_PUSH (R137). -/
  | pagePush (dt : Nat) (n : Link) (page : Byte)
  /-- PAGE_BACK (R137). -/
  | pageBack (dt : Nat) (n : Link)
  /-- PAGE_HOME (R137). -/
  | pageHome (dt : Nat) (n : Link)
  /-- DWELL_SET (R145). -/
  | dwellSet (dt : Nat) (n : Link) (dw : Byte)
  /-- CROSS_PLACE (R153). -/
  | crossPlace (dt : Nat) (n : Link) (x : Word) (y : Word)
  /-- CROSS_PARK (R154). -/
  | crossPark (dt : Nat) (n : Link)
  /-- CROSS_PARAMS (R155). -/
  | crossParams (dt : Nat) (n : Link) (slew : Word) (k : Byte)
  /-- CROSS_READ (R156). -/
  | crossRead (dt : Nat) (n : Link)
  /-- PORT_PARAMS (R19). -/
  | portParams (dt : Nat) (n : Link) (a : PortParamsArgs)
  /-- PEN_PARAMS (R74). -/
  | penParams (dt : Nat) (n : Link) (a : PenParamsArgs)
  /-- PEN_RESUME (R69). -/
  | penResume (dt : Nat) (n : Link)
  /-- PICK_PARAMS (R92). -/
  | pickParams (dt : Nat) (n : Link) (a : PickParamsArgs)
  /-- MODE_SET (R95). -/
  | modeSet (dt : Nat) (n : Link) (mode : Byte)
  /-- PICK_CANCEL (R107). -/
  | pickCancel (dt : Nat) (n : Link)
  /-- SNAP_SET (R166). -/
  | snapSet (dt : Nat) (n : Link) (a : SnapSetArgs)
  /-- NOTICE_MASK (R176). -/
  | noticeMask (dt : Nat) (n : Link) (classes : Byte)
  /-- FLAGS_CLEAR (R179). -/
  | flagsClear (dt : Nat) (n : Link) (flags : Word)
  /-- STATS_READ (R181). -/
  | statsRead (dt : Nat) (n : Link) (clear : Byte)
  /-- STATUS_READ (R182). -/
  | statusRead (dt : Nat) (n : Link)
  /-- IDENT (R183). -/
  | ident (dt : Nat) (n : Link)
  /-- LINK_RESET (R184). -/
  | linkReset (dt : Nat) (n : Link) (link : Byte)
  /-- PART_RESET (R185). -/
  | partReset (dt : Nat) (n : Link)
  /-- POWER_ON (R186): the straps read, and the levels at which the pen lines are first sampled (R60, R73; log 25). -/
  | powerOn (rate : LineRate) (tip : TipLevel) (line : Bool) (enable : Bool)
  /-- RESET_LINE (R186). -/
  | resetLine (dt : Nat)
  /-- CHARACTER_TAKEN (R170): a link receiver samples one character; `stopOk` is its stop bit (R169). -/
  | characterTaken (dt : Nat) (n : Link) (byte : Byte) (stopOk : Bool)
  deriving DecidableEq, Repr

end Sys2Proof
end

