-- ==== Sys2Proof/WellFormed.lean ====
section
/-! DEFINITION. Which commands have the shape of their row. The ranges of most operands are in their types; these checks
are the ones a type does not make. A command that fails a check still has a meaning (log 23). -/

namespace Sys2Proof

/-- Message types 01h to 22h name a command (R189). -/
def namesCommand (mtype : BitVec 6) : Bool :=
  decide (1 ≤ mtype.toNat) && decide (mtype.toNat ≤ 0x22)

/-- LINK_FRAME_COMPLETE has a payload a frame can carry (R170); FRAME_FAILED ends with SYNC, LENGTH or CHECK, since
SHORT is GAP_TIMER_EXPIRY's; UNKNOWN_TYPE's frame names no command or has direction 1 (R173, R189). -/
def WellFormed : Instr → Bool
  | .linkFrameComplete _ _ _ _ payload => decide (payload.length ≤ Config.payloadLimit)
  | .frameFailed _ _ reason => reason != .short
  | .unknownType _ _ dir mtype => dir || !namesCommand mtype
  | _ => true

end Sys2Proof
end

