-- ==== Sys2Proof/Decode.lean ====
section
/-! DEFINITION. The layouts of chapter 12 read and written: the link frame's content as a command and a command as a frame's
content, and the words of stroke port records. No row of spec/opcode_table.json gives bits, so `decodeTableWord`
answers none. -/

namespace Sys2Proof

/-- The content of a complete link frame: HEAD's direction and message type (R189), and the payload. -/
structure Frame where
  dir : Bool
  mtype : BitVec 6
  payload : List Byte
  deriving DecidableEq, Repr

/-- What a taken frame is found to be (R173): a type that names no command, a payload of a wrong length, or a command. -/
inductive Taken where
  | unknown (mtype : BitVec 6)
  | badLength (mtype : BitVec 6)
  | command (c : LinkCmd)
  deriving DecidableEq, Repr

/-- A two-byte field, most significant byte first (R187). -/
def word16 (hi lo : Byte) : Word := hi ++ lo

/-- A four-byte field, most significant byte first (R187). -/
def word32 (a b c d : Byte) : Long := (a ++ b) ++ (c ++ d)

/-- The bytes of a two-byte field in the order sent (R187). -/
def bytes16 (w : Word) : List Byte := [w.extractLsb' 8 8, w.extractLsb' 0 8]

/-- The bytes of a four-byte field in the order sent (R187). -/
def bytes32 (w : Long) : List Byte :=
  [w.extractLsb' 24 8, w.extractLsb' 16 8, w.extractLsb' 8 8, w.extractLsb' 0 8]

/-- The message type of each command (R189). -/
def LinkCmd.mtype : LinkCmd → BitVec 6
  | .segDefine _ => 0x01
  | .segSet _ => 0x02
  | .segShare _ => 0x03
  | .segRelease _ => 0x04
  | .segMenu _ => 0x05
  | .segQuery _ => 0x06
  | .viewSet _ => 0x07
  | .echoSet _ _ => 0x08
  | .filterInsert _ => 0x09
  | .filterDelete _ => 0x0A
  | .filterEnable _ _ => 0x0B
  | .filterRead _ => 0x0C
  | .pagePush _ => 0x0D
  | .pageBack => 0x0E
  | .pageHome => 0x0F
  | .dwellSet _ => 0x10
  | .crossPlace _ _ => 0x11
  | .crossPark => 0x12
  | .crossParams _ _ => 0x13
  | .crossRead => 0x14
  | .portParams _ => 0x15
  | .penParams _ => 0x16
  | .penResume => 0x17
  | .pickParams _ => 0x18
  | .modeSet _ => 0x19
  | .pickCancel => 0x1A
  | .snapSet _ => 0x1B
  | .noticeMask _ => 0x1C
  | .flagsClear _ => 0x1D
  | .statsRead _ => 0x1E
  | .statusRead => 0x1F
  | .ident => 0x20
  | .linkReset _ => 0x21
  | .partReset => 0x22

/-- A FILTER_INSERT's fields from enabled to final, as FILTER_READ's reply repeats them (12.3, R192). -/
def FilterInsertArgs.tailBytes (a : FilterInsertArgs) : List Byte :=
  [a.enabled, a.classMatch] ++ bytes16 a.segLow ++ bytes16 a.segHigh ++ bytes16 a.tagValue ++ bytes16 a.tagMask
    ++ [a.action, a.arg, a.final]

/-- The payload of a command (12.3). -/
def LinkCmd.payload : LinkCmd → List Byte
  | .segDefine a => bytes16 a.seg ++ [a.cls] ++ bytes16 a.tag ++ [a.switches, a.intensity, a.highlight, a.priority]
  | .segSet a => bytes16 a.seg ++ [a.present] ++ bytes16 a.tag ++ [a.switches, a.intensity, a.highlight, a.priority]
  | .segShare seg => bytes16 seg
  | .segRelease seg => bytes16 seg
  | .segMenu a => bytes16 a.seg ++ [a.page, a.action, a.target, a.notify]
  | .segQuery seg => bytes16 seg
  | .viewSet a => [a.orientation] ++ bytes32 a.ox ++ bytes32 a.oy ++ bytes32 a.sc
  | .echoSet e style => bytes16 e ++ [style]
  | .filterInsert a => [a.index] ++ a.tailBytes
  | .filterDelete index => [index]
  | .filterEnable index enabled => [index, enabled]
  | .filterRead index => [index]
  | .pagePush page => [page]
  | .pageBack => []
  | .pageHome => []
  | .dwellSet dw => [dw]
  | .crossPlace x y => bytes16 x ++ bytes16 y
  | .crossPark => []
  | .crossParams slew k => bytes16 slew ++ [k]
  | .crossRead => []
  | .portParams a => [a.h, a.lw] ++ bytes16 a.ta
  | .penParams a => [a.wmin] ++ bytes16 a.dd ++ [a.f, a.tb]
  | .penResume => []
  | .pickParams a => bytes16 a.l ++ [a.w, a.n] ++ bytes16 a.t ++ bytes16 a.d
  | .modeSet mode => [mode]
  | .pickCancel => []
  | .snapSet a => bytes16 a.px ++ bytes16 a.py ++ bytes32 a.gx ++ bytes32 a.gy
  | .noticeMask classes => [classes]
  | .flagsClear flags => bytes16 flags
  | .statsRead clear => [clear]
  | .statusRead => []
  | .ident => []
  | .linkReset link => [link]
  | .partReset => []

/-- The frame a sender makes of a command: direction 0, its type and its payload (R189). -/
def encodeCommand (c : LinkCmd) : Frame := { dir := false, mtype := c.mtype, payload := c.payload }

/-- A payload of nine bytes read as SEG_DEFINE (12.3). -/
def parseSegDefine : List Byte → Option LinkCmd
  | [s1, s0, cls, t1, t0, sw, i, h, p] =>
    some (.segDefine { seg := word16 s1 s0, cls := cls, tag := word16 t1 t0, switches := sw, intensity := i,
                       highlight := h, priority := p })
  | _ => none

/-- A payload of nine bytes read as SEG_SET (12.3). -/
def parseSegSet : List Byte → Option LinkCmd
  | [s1, s0, pr, t1, t0, sw, i, h, p] =>
    some (.segSet { seg := word16 s1 s0, present := pr, tag := word16 t1 t0, switches := sw, intensity := i,
                    highlight := h, priority := p })
  | _ => none

/-- A payload of six bytes read as SEG_MENU (12.3). -/
def parseSegMenu : List Byte → Option LinkCmd
  | [s1, s0, page, act, tgt, nfy] =>
    some (.segMenu { seg := word16 s1 s0, page := page, action := act, target := tgt, notify := nfy })
  | _ => none

/-- A payload of thirteen bytes read as VIEW_SET (12.3). -/
def parseViewSet : List Byte → Option LinkCmd
  | [o, x3, x2, x1, x0, y3, y2, y1, y0, c3, c2, c1, c0] =>
    some (.viewSet { orientation := o, ox := word32 x3 x2 x1 x0, oy := word32 y3 y2 y1 y0, sc := word32 c3 c2 c1 c0 })
  | _ => none

/-- A payload of fourteen bytes read as FILTER_INSERT (12.3). -/
def parseFilterInsert : List Byte → Option LinkCmd
  | [ix, en, cm, l1, l0, h1, h0, v1, v0, m1, m0, act, arg, fin] =>
    some (.filterInsert { index := ix, enabled := en, classMatch := cm, segLow := word16 l1 l0, segHigh := word16 h1 h0,
                          tagValue := word16 v1 v0, tagMask := word16 m1 m0, action := act, arg := arg, final := fin })
  | _ => none

/-- A payload of eight bytes read as PICK_PARAMS (12.3). -/
def parsePickParams : List Byte → Option LinkCmd
  | [l1, l0, w, n, t1, t0, d1, d0] =>
    some (.pickParams { l := word16 l1 l0, w := w, n := n, t := word16 t1 t0, d := word16 d1 d0 })
  | _ => none

/-- A payload of five bytes read as PEN_PARAMS (12.3). -/
def parsePenParams : List Byte → Option LinkCmd
  | [w, d1, d0, f, tb] => some (.penParams { wmin := w, dd := word16 d1 d0, f := f, tb := tb })
  | _ => none

/-- A payload of four bytes read as PORT_PARAMS (12.3). -/
def parsePortParams : List Byte → Option LinkCmd
  | [h, lw, t1, t0] => some (.portParams { h := h, lw := lw, ta := word16 t1 t0 })
  | _ => none

/-- A payload of twelve bytes read as SNAP_SET (12.3). -/
def parseSnapSet : List Byte → Option LinkCmd
  | [p1, p0, q1, q0, x3, x2, x1, x0, y3, y2, y1, y0] =>
    some (.snapSet { px := word16 p1 p0, py := word16 q1 q0, gx := word32 x3 x2 x1 x0, gy := word32 y3 y2 y1 y0 })
  | _ => none

/-- A payload of four bytes read as two two-byte fields. -/
def parseTwoWords (f : Word → Word → LinkCmd) : List Byte → Option LinkCmd
  | [a1, a0, b1, b0] => some (f (word16 a1 a0) (word16 b1 b0))
  | _ => none

/-- A payload of three bytes read as a two-byte field and a byte. -/
def parseWordByte (f : Word → Byte → LinkCmd) : List Byte → Option LinkCmd
  | [a1, a0, b] => some (f (word16 a1 a0) b)
  | _ => none

/-- A payload of two bytes read as one field. -/
def parseWord (f : Word → LinkCmd) : List Byte → Option LinkCmd
  | [a1, a0] => some (f (word16 a1 a0))
  | _ => none

/-- A payload of two bytes read as two fields. -/
def parseTwoBytes (f : Byte → Byte → LinkCmd) : List Byte → Option LinkCmd
  | [a, b] => some (f a b)
  | _ => none

/-- A payload of one byte. -/
def parseByte (f : Byte → LinkCmd) : List Byte → Option LinkCmd
  | [a] => some (f a)
  | _ => none

/-- An empty payload. -/
def parseEmpty (c : LinkCmd) : List Byte → Option LinkCmd
  | [] => some c
  | _ => none

/-- The reader of the payload that a message type calls for, or none where the type names no command (R189, 12.3). -/
def payloadReader : Nat → Option (List Byte → Option LinkCmd)
  | 0x01 => some parseSegDefine
  | 0x02 => some parseSegSet
  | 0x03 => some (parseWord .segShare)
  | 0x04 => some (parseWord .segRelease)
  | 0x05 => some parseSegMenu
  | 0x06 => some (parseWord .segQuery)
  | 0x07 => some parseViewSet
  | 0x08 => some (parseWordByte .echoSet)
  | 0x09 => some parseFilterInsert
  | 0x0A => some (parseByte .filterDelete)
  | 0x0B => some (parseTwoBytes .filterEnable)
  | 0x0C => some (parseByte .filterRead)
  | 0x0D => some (parseByte .pagePush)
  | 0x0E => some (parseEmpty .pageBack)
  | 0x0F => some (parseEmpty .pageHome)
  | 0x10 => some (parseByte .dwellSet)
  | 0x11 => some (parseTwoWords .crossPlace)
  | 0x12 => some (parseEmpty .crossPark)
  | 0x13 => some (parseWordByte .crossParams)
  | 0x14 => some (parseEmpty .crossRead)
  | 0x15 => some parsePortParams
  | 0x16 => some parsePenParams
  | 0x17 => some (parseEmpty .penResume)
  | 0x18 => some parsePickParams
  | 0x19 => some (parseByte .modeSet)
  | 0x1A => some (parseEmpty .pickCancel)
  | 0x1B => some parseSnapSet
  | 0x1C => some (parseByte .noticeMask)
  | 0x1D => some (parseWord .flagsClear)
  | 0x1E => some (parseByte .statsRead)
  | 0x1F => some (parseEmpty .statusRead)
  | 0x20 => some (parseEmpty .ident)
  | 0x21 => some (parseByte .linkReset)
  | 0x22 => some (parseEmpty .partReset)
  | _ => none

/-- What a taken frame is (R173, R189): a frame with direction 1 or a type that names no command is UNKNOWN; then a payload
whose length the command's layout does not allow is answered RANGE; otherwise it is the command. -/
def decodeFrame (f : Frame) : Taken :=
  if f.dir then .unknown f.mtype
  else
    match payloadReader f.mtype.toNat with
    | none => .unknown f.mtype
    | some read =>
      match read f.payload with
      | none => .badLength f.mtype
      | some c => .command c

/-- The kind of a marked word: bits 14..12 (R188). -/
def wordKind (w : Word) : Nat := (w.extractLsb' 12 3).toNat

/-- The begin marker, bit 15 (12.1). -/
def wordMarked (w : Word) : Bool := w.getLsbD 15

/-- The five words of a VECTOR record (12.1). -/
def vectorWords (beam : Bool) (p : Stroke) : List Word :=
  [0xC000#16 ||| (BitVec.ofBool beam).zeroExtend 16, p.x0.zeroExtend 16, p.y0.zeroExtend 16, p.x1.zeroExtend 16,
    p.y1.zeroExtend 16]

/-- The word of a SEGMENT-OPEN record (12.1). -/
def segmentOpenWord (seg : BitVec 10) : Word := 0xA000#16 ||| seg.zeroExtend 16

/-- The word of a SEGMENT-CLOSE record (12.1). -/
def segmentCloseWord : Word := 0xB000#16

/-- The word of a FRAME-OPEN record (12.1). -/
def frameOpenWord (seq : Byte) : Word := 0x9000#16 ||| seq.zeroExtend 16

/-- The word of a FRAME-CLOSE record (12.1). -/
def frameCloseWord : Word := 0xD000#16

/-- The command a word spells by the table's bits: no row of the table gives bits, so none. -/
def decodeTableWord (_nbits _w : Nat) : Option Instr := none

end Sys2Proof
end

