-- ==== Sys2Proof/Machine/State.lean ====
section
/-! DEFINITION. The state of the PK-418, block by block, as plain data; the outcomes' reasons; the state after reset. -/

namespace Sys2Proof.Machine

/-! ## Shared value types -/

/-- A link set (0.5): one of the four subsets of the two links. -/
structure LinkSet where
  l0 : Bool
  l1 : Bool
  deriving DecidableEq, Repr

/-- The class of a segment (2.1). -/
inductive SegClass where
  | drawing
  | menu
  | mark
  deriving DecidableEq, Repr

/-- A highlight style (2.1). -/
inductive Highlight where
  | none
  | bright
  | blink
  | dash
  deriving DecidableEq, Repr

/-- An echo style (R45): a highlight style other than NONE. -/
inductive EchoStyle where
  | bright
  | blink
  | dash
  deriving DecidableEq, Repr

/-- What a pick on a segment names (2.1). -/
inductive Granularity where
  | segment
  | element
  deriving DecidableEq, Repr

/-- The pick mode (R94). -/
inductive PickMode where
  | element
  | point
  deriving DecidableEq, Repr

/-- The page a menu item is bound to (2.1): one page, or ALL. -/
inductive BoundPage where
  | page (p : Fin 15)
  | all
  deriving DecidableEq, Repr

/-- The action of a menu item (2.1, 8.2). -/
inductive MenuAction where
  | notify
  | page (p : Fin 15)
  | back
  | home
  | mode (m : PickMode)
  deriving DecidableEq, Repr

/-- A menu binding (2.1). -/
structure Binding where
  page : BoundPage
  action : MenuAction
  notify : Bool
  deriving DecidableEq, Repr

/-- The orientation of a view (R162). -/
inductive Orientation where
  | deg0
  | deg90
  | deg180
  | deg270
  deriving DecidableEq, Repr

/-- A view (R160): orientation, window origin (signed, two's complement) and scale. -/
structure View where
  orientation : Orientation
  ox : Long
  oy : Long
  sc : Nat
  deriving DecidableEq, Repr

/-! ## Stroke port (chapter 1) -/

/-- The port state (1.4). -/
inductive PortMode where
  | dark
  | inFrame
  | between
  deriving DecidableEq, Repr

/-- A queued record's kind and fields (1.1). -/
inductive QueuedRecord where
  | segmentOpen (seg : Nat)
  | segmentClose
  | vector (beam : Bool) (p : Stroke)
  deriving DecidableEq, Repr

/-- An entry of the intake FIFO (R4). -/
structure FifoEntry where
  record : QueuedRecord
  stamp : Nat
  lost : Bool
  gapStart : Option Nat
  deriving DecidableEq, Repr

/-- A VECTOR record of which some words have been written: its stamp, beam flag and the continuation words so far (R2). -/
structure PartialVector where
  stamp : Nat
  beam : Bool
  words : List (BitVec 12)
  deriving DecidableEq, Repr

/-- The stroke port (R20's table). -/
structure Port where
  mode : PortMode
  resync : Bool
  openSeg : Option Nat
  lastSeq : Byte
  frameTime : Nat
  fifo : List FifoEntry
  pendingGap : Option Nat
  hold : Bool
  assembler : Option PartialVector
  answers : List Word
  absence : Nat
  h : Nat
  lw : Nat
  ta : Nat
  deriving DecidableEq, Repr

/-! ## Segment directory (chapter 2) -/

/-- The fields of a DEFINED entry (2.1). -/
structure Entry where
  owner : LinkSet
  cls : SegClass
  tag : Word
  visible : Bool
  detectable : Bool
  intensity : Fin 4
  highlight : Highlight
  priority : Fin 8
  granularity : Granularity
  binding : Option Binding
  deriving DecidableEq, Repr

/-- The directory's entries: the DEFINED ones by segment number, strictly rising; a number not listed is FREE (log 20). -/
abbrev Dir := List (Nat × Entry)

/-- The values of a SEG_DEFINE as staged (R29). -/
structure DefineValues where
  cls : SegClass
  tag : Word
  visible : Bool
  detectable : Bool
  intensity : Fin 4
  highlight : Highlight
  priority : Fin 8
  granularity : Granularity
  share : Bool
  deriving DecidableEq, Repr

/-- The values of a SEG_SET as staged: those it names (R30). -/
structure SetValues where
  tag : Option Word
  visible : Option Bool
  detectable : Option Bool
  intensity : Option (Fin 4)
  highlight : Option Highlight
  priority : Option (Fin 8)
  granularity : Option Granularity
  deriving DecidableEq, Repr

/-- What a staged change does (2.4). -/
inductive ChangeOp where
  | define (seg : Nat) (v : DefineValues)
  | set (seg : Nat) (v : SetValues)
  | share (seg : Nat)
  | release (seg : Nat)
  | menu (seg : Nat) (binding : Option Binding)
  | view (v : View)
  deriving DecidableEq, Repr

/-- A change on the change list: its issuing link, its kind and its values (R36). -/
structure Change where
  issuer : Link
  op : ChangeOp
  deriving DecidableEq, Repr

/-- An entry of the echo list (R44). -/
structure Echo where
  seg : Nat
  count : Nat
  deriving DecidableEq, Repr

/-- The segment directory (R47's table). -/
structure Directory where
  entries : Dir
  sweeps : LinkSet
  changes : List Change
  echoes : List Echo
  shown : List Nat
  shownStyle : EchoStyle
  echoLength : Nat
  echoStyle : EchoStyle
  withdrawn : List Nat
  deriving DecidableEq, Repr

/-! ## Stroke history (chapter 3) -/

/-- The kind of a history record (3.1). -/
inductive HistoryKind where
  | vector
  | move
  | gap
  deriving DecidableEq, Repr

/-- The element index of a stroke of a segment, with its element saturated field (R52). -/
structure ElementMark where
  index : Nat
  saturated : Bool
  deriving DecidableEq, Repr

/-- A history record (3.1). -/
structure HistoryRecord where
  kind : HistoryKind
  seg : Option Nat
  element : Option ElementMark
  start : Nat
  stop : Option Nat
  stroke : Option Stroke
  deriving DecidableEq, Repr

/-- The stroke history (R59's table); `took` marks that an entry was taken in this beam tick (R4, log 14). The ring stands
oldest record first. -/
structure History where
  ring : List HistoryRecord
  isOpen : Bool
  openSeg : Option Nat
  elementCount : Nat
  gapOpen : Bool
  wrapped : Bool
  took : Bool
  deriving DecidableEq, Repr

/-! ## Pen input (chapter 4) -/

/-- The pulse in progress (R62): leading-edge time, frame, the Wmin of its leading edge, and the ticks it has stood (R63). -/
structure Pulse where
  lead : Nat
  frame : Nat
  wmin : Nat
  stood : Nat
  deriving DecidableEq, Repr

/-- The pen input (R75's table), with the two lines it samples besides the tip switch (R60). -/
structure Pen where
  line : Bool
  enable : Bool
  pulse : Option Pulse
  lastHit : Option Nat
  hitCount : Nat
  flooded : Bool
  floods : Nat
  muted : Bool
  waiting : List Nat
  tipRaw : TipLevel
  tipDebounced : TipLevel
  tipTimer : Option Nat
  wmin : Nat
  dd : Nat
  f : Nat
  tb : Nat
  deriving DecidableEq, Repr

/-! ## Hit correlator (chapter 5) -/

/-- The hit correlator (R76). `frame` is the ordinal that tells one frame start from another (R91, log 12). -/
structure Correlator where
  l : Nat
  w : Nat
  newestStart : Option Nat
  frameDone : Bool
  frame : Nat
  deriving DecidableEq, Repr

/-! ## Pick resolver (chapter 6) -/

/-- The attempt state (6.2). -/
inductive AttemptState where
  | idle
  | gathering
  | closing
  | held
  deriving DecidableEq, Repr

/-- A point in screen units (0.7). -/
structure ScreenPoint where
  x : Nat
  y : Nat
  deriving DecidableEq, Repr

/-- The key of a candidate (R85): a segment with an element, or with ANY (none). -/
structure Key where
  seg : Nat
  element : Option Nat
  deriving DecidableEq, Repr

/-- A candidate record (R90). -/
structure Candidate where
  key : Key
  cls : SegClass
  tag : Word
  priority : Nat
  route : LinkSet
  weight : Nat
  point : ScreenPoint
  element : Nat
  saturated : Bool
  deriving DecidableEq, Repr

/-- An entry of the candidate tally (R108). -/
structure TallyEntry where
  key : Key
  cls : SegClass
  priority : Nat
  route : LinkSet
  tag : Word
  score : Nat
  hits : Nat
  framesSeen : Nat
  lastFrame : Nat
  lastPoint : ScreenPoint
  lastElement : Nat
  saturated : Bool
  deriving DecidableEq, Repr

/-- The pick resolver (R121's table). `fresh` marks an attempt that began at the frame end now in progress (R100, R103). -/
structure Resolver where
  mode : PickMode
  modeOwner : LinkSet
  attempt : AttemptState
  number : Byte
  frames : Nat
  releaseSeen : Bool
  gap : Bool
  overflow : Bool
  withdrawn : Bool
  closing : Nat
  fresh : Bool
  tally : List TallyEntry
  n : Nat
  t : Nat
  d : Nat
  deriving DecidableEq, Repr

/-! ## Pick filter list (chapter 7) -/

/-- What a filter entry does to a matched candidate (R126). -/
inductive FilterAction where
  | reject
  | priority (p : Fin 8)
  | route (s : LinkSet)
  deriving DecidableEq, Repr

/-- A filter entry (R123). -/
structure FilterEntry where
  author : Link
  enabled : Bool
  matchDrawing : Bool
  matchMenu : Bool
  segLow : Nat
  segHigh : Nat
  tagValue : Word
  tagMask : Word
  action : FilterAction
  final : Bool
  deriving DecidableEq, Repr

/-- The pick filter list (R122). -/
structure FilterList where
  entries : List FilterEntry
  editCount : Byte
  deriving DecidableEq, Repr

/-! ## Menu controller (chapter 8) -/

/-- An entry of the dwell frame sums (R140). -/
structure FrameSum where
  seg : Nat
  weight : Nat
  hits : Nat
  route : LinkSet
  tag : Word
  point : ScreenPoint
  element : Nat
  saturated : Bool
  gap : Bool
  deriving DecidableEq, Repr

/-- The menu controller (R146's table). A stack stands top first. -/
structure Menu where
  next : List (Fin 15)
  current : List (Fin 15)
  sums : List FrameSum
  leading : Option Nat
  dwellCount : Nat
  latched : Option Nat
  dw : Nat
  deriving DecidableEq, Repr

/-! ## Cross tracker (chapter 9) -/

/-- The cross state (9.1). -/
inductive CrossState where
  | parked
  | tracking
  | lost
  deriving DecidableEq, Repr

/-- The cross tracker (R147). -/
structure Cross where
  state : CrossState
  x : Nat
  y : Nat
  miss : Nat
  hSum : Nat
  hCount : Nat
  vSum : Nat
  vCount : Nat
  slew : Nat
  k : Nat
  deriving DecidableEq, Repr

/-! ## Coordinate unit (chapter 10) -/

/-- The coordinate unit (R160): the view in force and the snap settings. -/
structure Coord where
  view : View
  px : Word
  py : Word
  gx : Long
  gy : Long
  deriving DecidableEq, Repr

/-! ## Pick notices, notices and replies (6.5, 11.3, 11.5) -/

/-- The kind of an outcome (R116). -/
inductive OutcomeKind where
  | element
  | point
  | menu
  | ambiguous
  | missed
  | lost
  deriving DecidableEq, Repr

/-- The reason field of a pick notice (R116, 12.3); `absent` for the kinds that carry none. -/
inductive PickReason where
  | absent
  | none
  | weak
  | viewChanged
  | noFrames
  | penMuted
  | cancelled
  deriving DecidableEq, Repr

/-- The flags of a pick notice (R117) but for LOSS_BEFORE, which the link unit sets on the copy it sends. -/
structure PickFlags where
  gap : Bool
  overflow : Bool
  withdrawn : Bool
  elementSaturated : Bool
  saturated : Bool
  snapped : Bool
  dwell : Bool
  deriving DecidableEq, Repr

/-- The source of a primary part (12.3). -/
inductive PointSource where
  | none
  | cross
  | element
  deriving DecidableEq, Repr

/-- What a primary part says of the thing picked (R116). -/
structure Picked where
  seg : Nat
  whole : Bool
  element : Nat
  saturated : Bool
  tag : Word
  score : Nat
  hits : Nat
  framesSeen : Nat
  deriving DecidableEq, Repr

/-- The primary part of a pick notice (R116); `picked` is absent for POINT from the cross. -/
structure Primary where
  source : PointSource
  picked : Option Picked
  screen : ScreenPoint
  loftX : Int
  loftY : Int
  deriving DecidableEq, Repr

/-- An entry of an AMBIGUOUS outcome's candidate list (R116). -/
structure Listed where
  seg : Nat
  whole : Bool
  element : Nat
  saturated : Bool
  tag : Word
  score : Nat
  priority : Nat
  deriving DecidableEq, Repr

/-- The pick notice (R116). -/
structure PickNotice where
  kind : OutcomeKind
  attempt : Byte
  frames : Nat
  reason : PickReason
  flags : PickFlags
  primary : Option Primary
  list : List Listed
  deriving DecidableEq, Repr

/-- A group of shared parameters (R180). -/
inductive SettingsGroup where
  | pickParams
  | penParams
  | portParams
  | crossParams
  | snapSet
  | echoSet
  | dwellSet
  deriving DecidableEq, Repr

/-- The reply codes (11.3). -/
inductive ReplyCode where
  | ok
  | clamped
  | denied
  | range
  | state
  | full
  | unknown
  | reject
  deriving DecidableEq, Repr

/-- The cause a RESTARTED notice carries (R177). -/
inductive RestartCause where
  | powerOn
  | resetLine
  | partReset (n : Link)
  deriving DecidableEq, Repr

/-- The notices of the part (11.5). -/
inductive Notice where
  | pick (p : PickNotice)
  | mode (m : PickMode) (owner : LinkSet)
  | cross (state : CrossState) (x y : Nat) (seq : Byte)
  | condition (flags : BitVec 11)
  | settings (group : SettingsGroup) (values : List Byte)
  | skipped (reason : ReplyCode) (kind : BitVec 6) (seg : Option Nat) (seq : Byte)
  | page (p : Fin 15) (depth : Nat) (seq : Byte)
  | restarted (cause : RestartCause)
  deriving DecidableEq, Repr

/-- A notice as a link's queue holds it, with its LOSS_BEFORE mark (R175). -/
structure QueuedNotice where
  notice : Notice
  lossBefore : Bool
  deriving DecidableEq, Repr

/-- A reply (R173): the type of the command it answers, the reply code and the values. -/
structure Reply where
  mtype : BitVec 6
  code : ReplyCode
  values : List Byte
  deriving DecidableEq, Repr

/-- The frame a transmitter sends (R174). -/
inductive Sending where
  | reply (r : Reply)
  | notice (q : QueuedNotice)
  deriving DecidableEq, Repr

/-! ## Link units (chapter 11) -/

/-- The receiver of a link (R170): hunting, or receiving with the bytes taken after MARK and the ticks since the last one. -/
inductive Receiver where
  | hunting
  | receiving (bytes : List Byte) (gap : Nat)
  deriving DecidableEq, Repr

/-- One link unit (R186's table). `busy` marks that a command of this link is being carried out (R174, log 27). -/
structure LinkUnit where
  rx : Receiver
  inbound : List Frame
  slot : Option Reply
  tx : Option Sending
  queue : List QueuedNotice
  lossMark : Bool
  mask : BitVec 7
  busy : Bool
  deriving DecidableEq, Repr

/-- The two link units and the line rate they share (R169). -/
structure LinkUnits where
  rate : LineRate
  u0 : LinkUnit
  u1 : LinkUnit
  deriving DecidableEq, Repr

/-! ## Statistics (R181) -/

/-- The thirteen statistics counters (R181). -/
structure Stats where
  frames : Nat
  vectors : Nat
  intakeDrops : Nat
  hits : Nat
  narrow : Nat
  dead : Nat
  unmatched : Nat
  discarded : Nat
  attempts : Nat
  picks : Nat
  ambiguous : Nat
  missed : Nat
  lost : Nat
  deriving DecidableEq, Repr

/-! ## The whole part -/

/-- The state of the part, and the queue of commands that wait for it. -/
structure State where
  port : Port
  dir : Directory
  hist : History
  pen : Pen
  corr : Correlator
  res : Resolver
  filt : FilterList
  menu : Menu
  cross : Cross
  coord : Coord
  links : LinkUnits
  flags : BitVec 11
  stats : Stats
  answerOut : Word
  pending : List Instr
  deriving DecidableEq, Repr

/-- Why a step stops with a fault: nothing stops the PK-418, so there is no such reason (log 28). Safe. -/
inductive Fault where
  deriving DecidableEq, Repr

/-- Why a step is refused. -/
inductive Refusal where
  /-- Raised by `exec` alone, for a command that has no meaning yet. Safe: the machine stops. -/
  | notModelled (mnemonic : String)
  deriving DecidableEq, Repr

/-- A link unit right after a reset: RESTARTED has joined the empty queue and its transmission has begun (R177, R185, R186).
The mask holds PICK, MODE, CONDITION and SKIPPED. -/
def LinkUnit.afterReset (cause : RestartCause) : LinkUnit where
  rx := .hunting
  inbound := []
  slot := none
  tx := some (.notice { notice := .restarted cause, lossBefore := false })
  queue := []
  lossMark := false
  mask := 0b0101011#7
  busy := false

/-- The part right after power-on (R20, R47, R59, R75, R93, R121, R133, R146, R159, R168, R186), with the line rate 9600
(log 10) and the pen lines sampled as released, low and UP (log 11). -/
def State.reset : State where
  port :=
    { mode := .dark, resync := false, openSeg := none, lastSeq := 0, frameTime := 0, fifo := [], pendingGap := none,
      hold := false, assembler := none, answers := [], absence := 0, h := 12, lw := 4, ta := 200 }
  dir :=
    { entries := [], sweeps := { l0 := false, l1 := false }, changes := [], echoes := [], shown := [],
      shownStyle := .bright, echoLength := 10, echoStyle := .bright, withdrawn := [] }
  hist :=
    { ring := [], isOpen := false, openSeg := none, elementCount := 0, gapOpen := false, wrapped := false, took := false }
  pen :=
    { line := false, enable := false, pulse := none, lastHit := none, hitCount := 0, flooded := false, floods := 0,
      muted := false, waiting := [], tipRaw := .up, tipDebounced := .up, tipTimer := none, wmin := 3, dd := 30, f := 64,
      tb := 8 }
  corr := { l := 20, w := 5, newestStart := none, frameDone := true, frame := 0 }
  res :=
    { mode := .element, modeOwner := { l0 := true, l1 := true }, attempt := .idle, number := 0, frames := 0,
      releaseSeen := false, gap := false, overflow := false, withdrawn := false, closing := 0, fresh := false, tally := [],
      n := 3, t := 24, d := 12 }
  filt := { entries := [], editCount := 0 }
  menu := { next := [], current := [], sums := [], leading := none, dwellCount := 0, latched := none, dw := 0 }
  cross :=
    { state := .parked, x := 2048, y := 2048, miss := 0, hSum := 0, hCount := 0, vSum := 0, vCount := 0, slew := 64,
      k := 8 }
  coord :=
    { view := { orientation := .deg0, ox := 0, oy := 0, sc := 256 }, px := 0, py := 0, gx := 0, gy := 0 }
  links := { rate := .r9600, u0 := LinkUnit.afterReset .powerOn, u1 := LinkUnit.afterReset .powerOn }
  flags := 0b00000000100#11
  stats :=
    { frames := 0, vectors := 0, intakeDrops := 0, hits := 0, narrow := 0, dead := 0, unmatched := 0, discarded := 0,
      attempts := 0, picks := 0, ambiguous := 0, missed := 0, lost := 0 }
  answerOut := 0
  pending := []

end Sys2Proof.Machine
end

