-- ==== Sys2Proof/Machine/Operands.lean ====
section
/-! DEFINITION. The operand forms: link sets, the codes of chapter 12, clamping (0.5, R28), the two rounding rules (0.5),
and the byte order of fields sent (R187). -/

namespace Sys2Proof.Machine

/-! ## Links and link sets -/

/-- The other link. -/
def otherLink : Link → Link
  | .link0 => .link1
  | .link1 => .link0

/-- A link's number. -/
def linkNumber : Link → Nat
  | .link0 => 0
  | .link1 => 1

/-- The empty link set. -/
def LinkSet.none : LinkSet := { l0 := false, l1 := false }

/-- The link set {0,1}. -/
def LinkSet.both : LinkSet := { l0 := true, l1 := true }

/-- The link set of one link. -/
def LinkSet.single : Link → LinkSet
  | .link0 => { l0 := true, l1 := false }
  | .link1 => { l0 := false, l1 := true }

/-- Whether a link is in a set. -/
def LinkSet.has (a : LinkSet) : Link → Bool
  | .link0 => a.l0
  | .link1 => a.l1

/-- The union of two sets. -/
def LinkSet.union (a b : LinkSet) : LinkSet := { l0 := a.l0 || b.l0, l1 := a.l1 || b.l1 }

/-- The links of the first set that are not in the second. -/
def LinkSet.diff (a b : LinkSet) : LinkSet := { l0 := a.l0 && !b.l0, l1 := a.l1 && !b.l1 }

/-- Whether two sets share a link. -/
def LinkSet.meets (a b : LinkSet) : Bool := (a.l0 && b.l0) || (a.l1 && b.l1)

/-- Whether a set is empty. -/
def LinkSet.isEmpty (a : LinkSet) : Bool := !a.l0 && !a.l1

/-- A link set as a number: bit 0 link 0, bit 1 link 1 (12.3). -/
def LinkSet.code (a : LinkSet) : Nat := (if a.l0 then 1 else 0) + (if a.l1 then 2 else 0)

/-- A link set byte; bits 7..2 are disregarded (12.3). -/
def linkSetOf (b : Byte) : LinkSet := { l0 := b.getLsbD 0, l1 := b.getLsbD 1 }

/-! ## Clamping and rounding -/

/-- A value brought to the nearest end of its range (0.5). -/
def clampNat (lo hi v : Nat) : Nat := if v < lo then lo else if hi < v then hi else v

/-- Whether a value lies outside its range. -/
def outside (lo hi v : Nat) : Bool := decide (v < lo) || decide (hi < v)

/-- An increment that stays at its greatest value (0.5). -/
def satAdd (limit v amount : Nat) : Nat := if limit < v + amount then limit else v + amount

/-- `num / den` rounded to the nearest integer, an exact half away from zero (0.5). -/
def roundHalfAway (num : Int) (den : Nat) : Int :=
  let q : Int := ((2 * num.natAbs + den) / (2 * den) : Nat)
  if num < 0 then -q else q

/-- `num / den` of naturals rounded to the nearest integer, an exact half upward (0.5). -/
def roundHalfUp (num den : Nat) : Nat := (2 * num + den) / (2 * den)

/-! ## Fields sent (R187) -/

/-- A value as a one-byte field. -/
def byteOf (v : Nat) : Byte := BitVec.ofNat 8 v

/-- A yes or no as a one-byte field. -/
def boolByte (b : Bool) : Byte := if b then 1 else 0

/-- A value as a two-byte field. -/
def wordBytes (v : Nat) : List Byte := bytes16 (BitVec.ofNat 16 v)

/-- A signed value as a four-byte field in two's complement. -/
def signedBytes (v : Int) : List Byte := bytes32 (BitVec.ofInt 32 v)

/-- A byte that carries yes or no is read by its bit 0 alone (12.3). -/
def yes (b : Byte) : Bool := b.getLsbD 0

/-! ## The codes of chapter 12 -/

/-- Class: DRAWING 0, MENU 1, MARK 2 (12.3). -/
def classOf (b : Byte) : Option SegClass :=
  if b = 0 then some .drawing else if b = 1 then some .menu else if b = 2 then some .mark else none

/-- The code of a class. -/
def SegClass.code : SegClass → Nat
  | .drawing => 0
  | .menu => 1
  | .mark => 2

/-- Highlight: NONE 0, BRIGHT 1, BLINK 2, DASH 3 (R188). -/
def highlightOf (b : Byte) : Option Highlight :=
  if b = 0 then some .none else if b = 1 then some .bright else if b = 2 then some .blink
  else if b = 3 then some .dash else none

/-- The code of a highlight style. -/
def Highlight.code : Highlight → Nat
  | .none => 0
  | .bright => 1
  | .blink => 2
  | .dash => 3

/-- An echo style code: NONE and codes that name no style are refused (R45). -/
def echoStyleOf (b : Byte) : Option EchoStyle :=
  if b = 1 then some .bright else if b = 2 then some .blink else if b = 3 then some .dash else none

/-- An echo style as the highlight it is drawn with (R46). -/
def EchoStyle.highlight : EchoStyle → Highlight
  | .bright => .bright
  | .blink => .blink
  | .dash => .dash

/-- Pick mode: ELEMENT 0, POINT 1 (12.3). -/
def pickModeOf (b : Byte) : Option PickMode :=
  if b = 0 then some .element else if b = 1 then some .point else none

/-- The code of a pick mode. -/
def PickMode.code : PickMode → Nat
  | .element => 0
  | .point => 1

/-- A page number 0..14. -/
def pageOf (b : Byte) : Option (Fin 15) :=
  if h : b.toNat < 15 then some ⟨b.toNat, h⟩ else none

/-- A SEG_MENU page byte: 0..14 a page, 15 ALL (R33). -/
def boundPageOf (b : Byte) : Option BoundPage :=
  if h : b.toNat < 15 then some (.page ⟨b.toNat, h⟩) else if b = 15 then some .all else none

/-- The code of a bound page. -/
def BoundPage.code : BoundPage → Nat
  | .page p => p.val
  | .all => 15

/-- A SEG_MENU action with its target: NOTIFY 0, PAGE 1, BACK 2, HOME 3, MODE 4; the target byte is disregarded but for
PAGE and MODE (12.3). -/
def menuActionOf (action target : Byte) : Option MenuAction :=
  if action = 0 then some .notify
  else if action = 1 then (pageOf target).map .page
  else if action = 2 then some .back
  else if action = 3 then some .home
  else if action = 4 then (pickModeOf target).map .mode
  else none

/-- The code of a menu action. -/
def MenuAction.code : MenuAction → Nat
  | .notify => 0
  | .page _ => 1
  | .back => 2
  | .home => 3
  | .mode _ => 4

/-- The target byte of a menu action; 0 where the action has none (R187, log 18). -/
def MenuAction.target : MenuAction → Nat
  | .page p => p.val
  | .mode m => m.code
  | .notify => 0
  | .back => 0
  | .home => 0

/-- Orientation: 0, 1, 2, 3 for 0, 90, 180, 270 (12.3). -/
def orientationOf (b : Byte) : Option Orientation :=
  if b = 0 then some .deg0 else if b = 1 then some .deg90 else if b = 2 then some .deg180
  else if b = 3 then some .deg270 else none

/-- A link number byte (R184). -/
def linkOf (b : Byte) : Option Link :=
  if b = 0 then some .link0 else if b = 1 then some .link1 else none

/-- Intensity, clamped to 0..3 (R28). -/
def intensityOf (b : Byte) : Fin 4 := if h : b.toNat < 4 then ⟨b.toNat, h⟩ else 3

/-- Priority, clamped to 0..7 (R28, R128). -/
def priorityOf (b : Byte) : Fin 8 := if h : b.toNat < 8 then ⟨b.toNat, h⟩ else 7

/-- A granularity switch: ELEMENT when the bit is 1 (12.3). -/
def granularityOf (b : Bool) : Granularity := if b then .element else .segment

/-- A filter action with its byte: REJECT 0, PRIORITY 1, ROUTE 2 (12.3); a priority above 7 is stored as 7 (R128). -/
def filterActionOf (action arg : Byte) : Option FilterAction :=
  if action = 0 then some .reject
  else if action = 1 then some (.priority (priorityOf arg))
  else if action = 2 then some (.route (linkSetOf arg))
  else none

/-- The code of a filter action. -/
def FilterAction.code : FilterAction → Nat
  | .reject => 0
  | .priority _ => 1
  | .route _ => 2

/-- The priority or link set byte of a filter action; 0 for REJECT (R187, log 18). -/
def FilterAction.arg : FilterAction → Nat
  | .reject => 0
  | .priority p => p.val
  | .route s => s.code

/-- Reply codes (12.3). -/
def ReplyCode.code : ReplyCode → Nat
  | .ok => 0
  | .clamped => 1
  | .denied => 2
  | .range => 3
  | .state => 4
  | .full => 5
  | .unknown => 6
  | .reject => 7

/-- The reason byte of a REJECT (12.3). -/
def failCode : FailReason → Nat
  | .sync => 1
  | .length => 2
  | .check => 3
  | .short => 4

/-- Outcome kinds (12.3). -/
def OutcomeKind.code : OutcomeKind → Nat
  | .element => 1
  | .point => 2
  | .menu => 3
  | .ambiguous => 4
  | .missed => 5
  | .lost => 6

/-- Reasons (12.3). -/
def PickReason.code : PickReason → Nat
  | .absent => 0
  | .none => 1
  | .weak => 2
  | .viewChanged => 3
  | .noFrames => 4
  | .penMuted => 5
  | .cancelled => 6

/-- Sources of a primary part (12.3). -/
def PointSource.code : PointSource → Nat
  | .none => 0
  | .cross => 1
  | .element => 2

/-- Settings groups (R193). -/
def SettingsGroup.code : SettingsGroup → Nat
  | .pickParams => 0
  | .penParams => 1
  | .portParams => 2
  | .crossParams => 3
  | .snapSet => 4
  | .echoSet => 5
  | .dwellSet => 6

/-- Port state codes: DARK 0, IN_FRAME 1, IN_FRAME with RESYNC 2, BETWEEN 3 (R192). -/
def portStateCode (mode : PortMode) (resync : Bool) : Nat :=
  match mode with
  | .dark => 0
  | .inFrame => if resync then 2 else 1
  | .between => 3

/-- Attempt states (R192). -/
def AttemptState.code : AttemptState → Nat
  | .idle => 0
  | .gathering => 1
  | .closing => 2
  | .held => 3

/-- Cross states (R192). -/
def CrossState.code : CrossState → Nat
  | .parked => 0
  | .tracking => 1
  | .lost => 2

/-- Tip levels (R192). -/
def tipCode : TipLevel → Nat
  | .up => 0
  | .down => 1

/-- Line rates (R192). -/
def rateCode : LineRate → Nat
  | .r9600 => 0
  | .r19200 => 1
  | .r38400 => 2
  | .r76800 => 3

end Sys2Proof.Machine
end

