-- ==== Sys2Proof/Machine/Flags.lean ====
section
/-! DEFINITION. The condition flags (R178) and the statistics counters (R181) as values; setting a flag with its notices
is `State.setFlag` in Ops. -/

namespace Sys2Proof.Machine

/-- The eleven condition flags in the order of R178, which is the order of their bits (12.3). -/
inductive ConditionFlag where
  | intakeDrop
  | portProtocol
  | dark
  | flood
  | penMuted
  | historyShort
  | changeSkipped
  | frameError (n : Link)
  | queueLoss (n : Link)
  deriving DecidableEq, Repr

/-- The bit of a flag in a flag set (12.3). -/
def ConditionFlag.bit : ConditionFlag → BitVec 11
  | .intakeDrop => 0b00000000001#11
  | .portProtocol => 0b00000000010#11
  | .dark => 0b00000000100#11
  | .flood => 0b00000001000#11
  | .penMuted => 0b00000010000#11
  | .historyShort => 0b00000100000#11
  | .changeSkipped => 0b00001000000#11
  | .frameError .link0 => 0b00010000000#11
  | .frameError .link1 => 0b00100000000#11
  | .queueLoss .link0 => 0b01000000000#11
  | .queueLoss .link1 => 0b10000000000#11

/-- Whether a flag set holds a flag. -/
def flagSet (flags : BitVec 11) (f : ConditionFlag) : Bool := flags &&& f.bit != 0

/-- A flag set with one more flag. -/
def withFlag (flags : BitVec 11) (f : ConditionFlag) : BitVec 11 := flags ||| f.bit

/-- A flag set as the two-byte field that carries it. -/
def flagBytes (flags : BitVec 11) : List Byte := bytes16 (flags.zeroExtend 16)

/-- The thirteen counters in the order of R181. -/
inductive Counter where
  | frames
  | vectors
  | intakeDrops
  | hits
  | narrow
  | dead
  | unmatched
  | discarded
  | attempts
  | picks
  | ambiguous
  | missed
  | lost
  deriving DecidableEq, Repr

/-- A counter's increment: it stays at 65535 (R181). -/
def countUp (v : Nat) : Nat := satAdd Config.counterLimit v 1

/-- The counters with one of them increased (R181). -/
def Stats.count (st : Stats) : Counter → Stats
  | .frames => { st with frames := countUp st.frames }
  | .vectors => { st with vectors := countUp st.vectors }
  | .intakeDrops => { st with intakeDrops := countUp st.intakeDrops }
  | .hits => { st with hits := countUp st.hits }
  | .narrow => { st with narrow := countUp st.narrow }
  | .dead => { st with dead := countUp st.dead }
  | .unmatched => { st with unmatched := countUp st.unmatched }
  | .discarded => { st with discarded := countUp st.discarded }
  | .attempts => { st with attempts := countUp st.attempts }
  | .picks => { st with picks := countUp st.picks }
  | .ambiguous => { st with ambiguous := countUp st.ambiguous }
  | .missed => { st with missed := countUp st.missed }
  | .lost => { st with lost := countUp st.lost }

/-- The counters in the order of R181. -/
def Stats.values (st : Stats) : List Nat :=
  [st.frames, st.vectors, st.intakeDrops, st.hits, st.narrow, st.dead, st.unmatched, st.discarded, st.attempts, st.picks,
    st.ambiguous, st.missed, st.lost]

/-- All counters at 0 (R181). -/
def Stats.zero : Stats where
  frames := 0
  vectors := 0
  intakeDrops := 0
  hits := 0
  narrow := 0
  dead := 0
  unmatched := 0
  discarded := 0
  attempts := 0
  picks := 0
  ambiguous := 0
  missed := 0
  lost := 0

end Sys2Proof.Machine
end

