-- ==== Sys2Proof/Machine/Ops.lean ====
section
/-! DEFINITION. The operations every block uses: a link's unit, the notice queues and the transmitters behind them
(R174 to R176), setting a condition flag (R178), counting (R181), the segment lookup (R24). -/

namespace Sys2Proof.Machine

/-! ## Link units -/

/-- The unit of a link. -/
def State.unit (s : State) : Link → LinkUnit
  | .link0 => s.links.u0
  | .link1 => s.links.u1

/-- The state with one link's unit replaced. -/
def State.setUnit (s : State) (n : Link) (u : LinkUnit) : State :=
  match n with
  | .link0 => { s with links := { s.links with u0 := u } }
  | .link1 => { s with links := { s.links with u1 := u } }

/-- The bit of a notice class in a class set (12.3); RESTARTED belongs to no class (R177). -/
def Notice.classBit : Notice → Option (BitVec 7)
  | .pick _ => some 0b0000001#7
  | .mode _ _ => some 0b0000010#7
  | .cross _ _ _ _ => some 0b0000100#7
  | .condition _ => some 0b0001000#7
  | .settings _ _ => some 0b0010000#7
  | .skipped _ _ _ _ => some 0b0100000#7
  | .page _ _ _ => some 0b1000000#7
  | .restarted _ => none

/-- Whether a mask lets a notice into the queue (R176). -/
def enables (mask : BitVec 7) (x : Notice) : Bool :=
  match x.classBit with
  | none => true
  | some b => mask &&& b != 0

/-- The reset mask: PICK, MODE, CONDITION and SKIPPED (R176). -/
def resetMask : BitVec 7 := 0b0101011#7

/-- The transmitter's choice (R174): while idle, and no command of its own link being carried out, it begins the reply in
the slot, or else the oldest notice. -/
def LinkUnit.kick (u : LinkUnit) : LinkUnit :=
  if u.busy || u.tx.isSome then u
  else
    match u.slot with
    | some r => { u with tx := some (.reply r), slot := none }
    | none =>
      match u.queue with
      | q :: rest => { u with tx := some (.notice q), queue := rest }
      | [] => u

/-- A notice meant for a link (R175, R176): masked out, or joined to the queue with the loss mark it then carries, or dropped at
a full queue with the loss mark set. The second component says whether it was dropped. -/
def LinkUnit.offer (u : LinkUnit) (x : Notice) : LinkUnit × Bool :=
  if !enables u.mask x then (u, false)
  else if u.queue.length < Config.noticeQueueSize then
    (({ u with queue := u.queue ++ [{ notice := x, lossBefore := u.lossMark }], lossMark := false } : LinkUnit).kick, false)
  else ({ u with lossMark := true }, true)

/-- A notice offered to one link of the part. -/
def State.offer (s : State) (n : Link) (x : Notice) : State × Bool :=
  (s.setUnit n ((s.unit n).offer x).1, ((s.unit n).offer x).2)

/-- A notice offered to the links of a set, link 0 first (log 16), and then the drops made known: a QUEUE_LOSS_n flag that goes
from clear to set queues a CONDITION notice in its turn (R175, R178). Each such round sets a flag that was clear, so
rounds beyond `fuel` = 2 find both flags set. -/
def State.postRounds : Nat → LinkSet → Notice → State → State
  | fuel, targets, x, s =>
    let a := if targets.l0 then s.offer .link0 x else (s, false)
    let b := if targets.l1 then a.1.offer .link1 x else (a.1, false)
    let lose (n : Link) (dropped : Bool) (t : State) : State :=
      if !dropped || flagSet t.flags (.queueLoss n) then t
      else
        let t' := { t with flags := withFlag t.flags (.queueLoss n) }
        match fuel with
        | 0 => t'
        | k + 1 => State.postRounds k .both (.condition t'.flags) t'
    lose .link1 b.2 (lose .link0 a.2 b.1)

/-- A notice queued for the links of a set (R175, R176). -/
def State.post (s : State) (targets : LinkSet) (x : Notice) : State := State.postRounds 2 targets x s

/-- A cause of a condition flag (R178): a flag that goes from clear to set queues a CONDITION notice that lists every flag set
at that moment; a cause that finds its flag set changes nothing. -/
def State.setFlag (s : State) (f : ConditionFlag) : State :=
  if flagSet s.flags f then s
  else
    let t := { s with flags := withFlag s.flags f }
    t.post .both (.condition t.flags)

/-- A counter's cause (R181). -/
def State.count (s : State) (c : Counter) : State := { s with stats := s.stats.count c }

/-- A SETTINGS notice to the link that did not issue the command (R180). -/
def State.postSettings (s : State) (issuer : Link) (group : SettingsGroup) (values : List Byte) : State :=
  s.post (.single (otherLink issuer)) (.settings group values)

/-- The reply code of a command carried out: CLAMPED when a value was brought into its range (11.3). -/
def doneCode (clamped : Bool) : ReplyCode := if clamped then .clamped else .ok

/-! ## Lookups -/

/-- The entry of a segment in a table of DEFINED entries; none is FREE (log 20). -/
def Dir.find : Dir → Nat → Option Entry
  | [], _ => none
  | (k, e) :: rest, seg => if k = seg then some e else Dir.find rest seg

/-- The entry of a segment in the directory in force (R24). -/
def State.entry (s : State) (seg : Nat) : Option Entry := Dir.find s.dir.entries seg

/-- The owner set of an entry; a FREE entry has none (R22). -/
def ownerOf : Option Entry → LinkSet
  | some e => e.owner
  | none => .none

/-- The top of a page stack, or 0 (R134). -/
def topPage : List (Fin 15) → Fin 15
  | p :: _ => p
  | [] => 0

/-- The current page (R134). -/
def State.currentPage (s : State) : Fin 15 := topPage s.menu.current

end Sys2Proof.Machine
end

