-- ==== Sys2Proof/Machine/Layouts.lean ====
section
/-! DEFINITION. The words and bytes the part sends: answer words (12.1), reply and notice payloads (12.3, R191 to R193), and the
link frame around them with its CRC-8 (R189, R190). -/

namespace Sys2Proof.Machine

/-! ## Answer words (12.1, R17, R18) -/

/-- The segment answer: draw in bit 15, intensity in bits 9..8, highlight in bits 1..0. -/
def segmentAnswer (draw : Bool) (intensity : Fin 4) (highlight : Highlight) : Word :=
  BitVec.ofNat 16 ((if draw then 0x8000 else 0) + intensity.val * 0x100 + highlight.code)

/-- The three words of the frame answer: cross shown and frame sequence, cross x, cross y. -/
def frameAnswer (shown : Bool) (seq : Byte) (x y : Nat) : List Word :=
  [BitVec.ofNat 16 ((if shown then 0x8000 else 0) + seq.toNat), BitVec.ofNat 16 x, BitVec.ofNat 16 y]

/-! ## Check (R190) -/

/-- One place of the CRC-8 register's shift (R190). -/
def crcShift (r : Byte) : Byte := if r.getLsbD 7 then (r <<< 1) ^^^ 0xD5#8 else r <<< 1

/-- The CRC-8 register after one more byte (R190). -/
def crcByte (r b : Byte) : Byte :=
  crcShift (crcShift (crcShift (crcShift (crcShift (crcShift (crcShift (crcShift (r ^^^ b))))))))

/-- The CRC-8 over HEAD, LEN and payload (R190). -/
def crc8 (bytes : List Byte) : Byte := bytes.foldl crcByte 0xFF#8

/-- A HEAD byte passes its check when bit 7 differs from bit 6 (R189). -/
def headPasses (b : Byte) : Bool := b.getLsbD 7 != b.getLsbD 6

/-! ## Replies (12.3, R192) -/

/-- A reply's payload: the type it answers, the code, the values. -/
def Reply.payload (r : Reply) : List Byte := [r.mtype.zeroExtend 8, byteOf r.code.code] ++ r.values

/-! ## Notices (12.3, R191, R193) -/

/-- A segment field: the number in bits 9..0, the whole-segment mark in bit 15 (R191). -/
def segField (seg : Nat) (whole : Bool) : List Byte := wordBytes (seg + if whole then 0x8000 else 0)

/-- An element field: the index in bits 11..0, element saturated in bit 15 (R191). -/
def elementField (element : Nat) (saturated : Bool) : List Byte := wordBytes (element + if saturated then 0x8000 else 0)

/-- The pick flags byte (12.3); bit 7 is LOSS_BEFORE on the copy sent (R191). -/
def pickFlagByte (f : PickFlags) (loss : Bool) : Byte :=
  byteOf ((if f.gap then 1 else 0) + (if f.overflow then 2 else 0) + (if f.withdrawn then 4 else 0)
    + (if f.elementSaturated then 8 else 0) + (if f.saturated then 16 else 0) + (if f.snapped then 32 else 0)
    + (if f.dwell then 64 else 0) + (if loss then 128 else 0))

/-- The ten bytes of a primary part after its source: segment to frames seen; FFFFh, FFFFh and zeros for POINT from the
cross (12.3, R191). -/
def pickedBytes : Option Picked → List Byte
  | some p =>
    segField p.seg p.whole ++ elementField p.element p.saturated ++ bytes16 p.tag ++ wordBytes p.score
      ++ [byteOf p.hits, byteOf p.framesSeen]
  | none => [0xFF, 0xFF, 0xFF, 0xFF, 0, 0, 0, 0, 0, 0]

/-- The 23 bytes of a primary part (12.3). -/
def primaryBytes (p : Primary) : List Byte :=
  [byteOf p.source.code] ++ pickedBytes p.picked ++ wordBytes p.screen.x ++ wordBytes p.screen.y ++ signedBytes p.loftX
    ++ signedBytes p.loftY

/-- The nine bytes of a listed entry (12.3). -/
def listedBytes (e : Listed) : List Byte :=
  segField e.seg e.whole ++ elementField e.element e.saturated ++ bytes16 e.tag ++ wordBytes e.score
    ++ [byteOf e.priority]

/-- The pick notice's payload (12.3): the header, then the primary part or the candidate list. -/
def PickNotice.payload (p : PickNotice) (loss : Bool) : List Byte :=
  [byteOf p.kind.code, p.attempt, byteOf p.frames, byteOf p.reason.code, pickFlagByte p.flags loss]
    ++ (match p.primary with
        | some q => primaryBytes q
        | none => [])
    ++ (match p.kind with
        | .ambiguous => byteOf p.list.length :: p.list.flatMap listedBytes
        | _ => [])

/-- The first payload byte of a notice other than the pick notice: LOSS_BEFORE in bit 7 (R191, R193). -/
def firstByte (loss : Bool) (v : Nat) : Byte := byteOf ((if loss then 128 else 0) + v)

/-- A notice's payload as the link sends it, with its LOSS_BEFORE mark (R191, R193). -/
def QueuedNotice.payload (q : QueuedNotice) : List Byte :=
  match q.notice with
  | .pick p => p.payload q.lossBefore
  | .mode m owner => [firstByte q.lossBefore (m.code + 2 * owner.code)]
  | .cross st x y seq => [firstByte q.lossBefore st.code] ++ wordBytes x ++ wordBytes y ++ [seq]
  | .condition flags => [firstByte q.lossBefore 0] ++ flagBytes flags
  | .settings g values => firstByte q.lossBefore g.code :: values
  | .skipped reason kind seg seq =>
    [firstByte q.lossBefore reason.code, kind.zeroExtend 8]
      ++ (match seg with
          | some k => segField k false
          | none => [0xFF, 0xFF])
      ++ [seq]
  | .page p depth seq => [firstByte q.lossBefore p.val, byteOf depth, seq]
  | .restarted cause =>
    [firstByte q.lossBefore
      (match cause with
       | .powerOn => 0
       | .resetLine => 1
       | .partReset n => 2 + 4 * linkNumber n)]

/-- The message type of a notice: 38h to 3Fh (R189). -/
def Notice.mtype : Notice → BitVec 6
  | .pick _ => 0x38
  | .mode _ _ => 0x39
  | .cross _ _ _ _ => 0x3A
  | .condition _ => 0x3B
  | .settings _ _ => 0x3C
  | .skipped _ _ _ _ => 0x3D
  | .page _ _ _ => 0x3E
  | .restarted _ => 0x3F

/-! ## The link frame (12.2) -/

/-- A HEAD byte: direction in bit 6 and its complement in bit 7, the type in bits 5..0 (R189). -/
def headByte (dir : Bool) (mtype : BitVec 6) : Byte := (if dir then 0x40#8 else 0x80#8) ||| mtype.zeroExtend 8

/-- The bytes of a link frame: MARK, HEAD, LEN, payload, CHECK (12.2). -/
def frameBytes (f : Frame) : List Byte :=
  let body := headByte f.dir f.mtype :: byteOf f.payload.length :: f.payload
  0xC3#8 :: body ++ [crc8 body]

/-- The frame a transmitter sends: direction 1, type 30h for a reply (R189). -/
def Sending.frame : Sending → Frame
  | .reply r => { dir := true, mtype := 0x30, payload := r.payload }
  | .notice q => { dir := true, mtype := q.notice.mtype, payload := q.payload }

/-- The bytes on the line of what a transmitter sends (R174). -/
def Sending.bytes (x : Sending) : List Byte := frameBytes x.frame

end Sys2Proof.Machine
end

