-- ==== Sys2Proof/Machine/CrossTracker.lean ====
section
/-! DEFINITION. The cross tracker (chapter 9): arm points, the frame-end update, the CROSS notice and the four commands. -/

namespace Sys2Proof.Machine

/-- The cross is drawn while TRACKING or LOST (R148). -/
def Cross.shown (c : Cross) : Bool := c.state != .parked

/-- The accumulators emptied (R147). -/
def Cross.emptied (c : Cross) : Cross := { c with hSum := 0, hCount := 0, vSum := 0, vCount := 0 }

/-- A cross-arm point (R149, R150): classified by its record's endpoints, and accumulated unless the cross is PARKED. -/
def Cross.armPoint (c : Cross) (p : Stroke) (at_ : ScreenPoint) : Cross :=
  if c.state = .parked then c
  else if p.y0 = p.y1 ∧ p.x0 ≠ p.x1 then { c with hSum := c.hSum + at_.x, hCount := c.hCount + 1 }
  else if p.x0 = p.x1 ∧ p.y0 ≠ p.y1 then { c with vSum := c.vSum + at_.y, vCount := c.vCount + 1 }
  else c

/-- One axis of the frame-end update (R151): the coordinate moved toward the mean of its points by at most the slew limit. -/
def moveAxis (slew coord sum count : Nat) : Nat :=
  if count = 0 then coord
  else
    let target := roundHalfUp sum count
    let moved :=
      if slew ≠ 0 ∧ coord + slew < target then coord + slew
      else if slew ≠ 0 ∧ target + slew < coord then coord - slew
      else target
    clampNat 0 4095 moved

/-- The frame-end update of position, miss count and state (R151, R152). -/
def Cross.update (c : Cross) : Cross :=
  if c.state = .parked then c
  else
    let moved :=
      { c with x := moveAxis c.slew c.x c.hSum c.hCount, y := moveAxis c.slew c.y c.vSum c.vCount }.emptied
    if 0 < c.hCount + c.vCount then { moved with state := .tracking, miss := 0 }
    else if c.state = .tracking then
      { moved with miss := c.miss + 1, state := if c.k ≤ c.miss + 1 then .lost else .tracking }
    else moved

/-- The cross replaced by its new state, with a CROSS notice when the cross state changes (R157). -/
def State.setCross (s : State) (c : Cross) : State :=
  let t := { s with cross := c }
  if c.state = s.cross.state then t else t.post .both (.cross c.state c.x c.y s.port.lastSeq)

/-- The cross tracker's frame-end work (R151, R152, R157). -/
def crossUpdate (s : State) : State := s.setCross s.cross.update

/-- CROSS_PLACE (R153): the clamped position, state LOST, miss count K, accumulators emptied. -/
def crossPlaceWork (x y : Word) (s : State) : State × Reply :=
  let cx := clampNat 0 4095 x.toNat
  let cy := clampNat 0 4095 y.toNat
  let t := s.setCross { s.cross with x := cx, y := cy, state := .lost, miss := s.cross.k }.emptied
  (t, { mtype := 0x11, code := doneCode (outside 0 4095 x.toNat || outside 0 4095 y.toNat),
        values := wordBytes cx ++ wordBytes cy })

/-- CROSS_PARK (R154): state PARKED, miss count 0, accumulators emptied, position kept. -/
def crossParkWork (s : State) : State × Reply :=
  (s.setCross { s.cross with state := .parked, miss := 0 }.emptied, { mtype := 0x12, code := .ok, values := [] })

/-- CROSS_PARAMS (R155): S clamped to 255, K to 1..63. -/
def crossParamsWork (n : Link) (slew : Word) (k : Byte) (s : State) : State × Reply :=
  let cs := clampNat 0 255 slew.toNat
  let ck := clampNat 1 63 k.toNat
  let t := { s with cross := { s.cross with slew := cs, k := ck } }
  (t.postSettings n .crossParams (wordBytes cs ++ [byteOf ck]),
    { mtype := 0x13, code := doneCode (outside 0 255 slew.toNat || outside 1 63 k.toNat), values := [] })

/-- CROSS_READ (R156): state, position, miss count, S and K. -/
def crossReadWork (s : State) : State × Reply :=
  let c := s.cross
  (s, { mtype := 0x14, code := .ok,
        values := [byteOf c.state.code] ++ wordBytes c.x ++ wordBytes c.y ++ [byteOf c.miss] ++ wordBytes c.slew
          ++ [byteOf c.k] })

end Sys2Proof.Machine
end

