-- ==== Sys2Proof/Machine/Coordinates.lean ====
section
/-! DEFINITION. The coordinate unit: the conversion of a screen point to a loft point (R161 to R165) and SNAP_SET (R166). -/

namespace Sys2Proof.Machine

/-- A loft point with the marks of its conversion (R161). -/
structure LoftPoint where
  x : Int
  y : Int
  saturated : Bool
  snapped : Bool
  deriving DecidableEq, Repr

/-- The orientation stage (R162): the turned point. -/
def turn (o : Orientation) (p : ScreenPoint) : Int × Int :=
  match o with
  | .deg0 => (p.x, p.y)
  | .deg90 => (p.y, 4095 - (p.x : Int))
  | .deg180 => (4095 - (p.x : Int), 4095 - (p.y : Int))
  | .deg270 => (4095 - (p.y : Int), p.x)

/-- The window stage on one axis (R163): the origin plus the rounded (u - 2048) x Sc / 256, carried wide. -/
def window (origin : Long) (sc : Nat) (u : Int) : Int := origin.toInt + roundHalfAway ((u - 2048) * sc) 256

/-- The snap stage on one axis (R164); pitch 0 passes the value on. -/
def snap (pitch : Word) (origin : Long) (v : Int) : Int :=
  if pitch = 0 then v else origin.toInt + pitch.toNat * roundHalfAway (v - origin.toInt) pitch.toNat

/-- The saturation stage on one axis (R165). -/
def saturate (v : Int) : Int :=
  if Config.loftLimit < v then Config.loftLimit else if v < -Config.loftLimit then -Config.loftLimit else v

/-- The conversion of a screen point through the view and snap settings in force (R161). -/
def Coord.convert (c : Coord) (p : ScreenPoint) : LoftPoint :=
  let u := turn c.view.orientation p
  let x := snap c.px c.gx (window c.view.ox c.view.sc u.1)
  let y := snap c.py c.gy (window c.view.oy c.view.sc u.2)
  { x := saturate x, y := saturate y, saturated := saturate x != x || saturate y != y,
    snapped := c.px != 0 || c.py != 0 }

/-- SNAP_SET (R166): the four values taken at once, carried by the reply and by the SETTINGS notice. -/
def snapSetWork (n : Link) (a : SnapSetArgs) (s : State) : State × Reply :=
  let values := bytes16 a.px ++ bytes16 a.py ++ bytes32 a.gx ++ bytes32 a.gy
  let t := { s with coord := { s.coord with px := a.px, py := a.py, gx := a.gx, gy := a.gy } }
  (t.postSettings n .snapSet values, { mtype := 0x1B, code := .ok, values := values })

end Sys2Proof.Machine
end

