-- ==== Sys2Proof/Machine/MenuPages.lean ====
section
/-! DEFINITION. The menu controller's page stacks (8.1): the stack operations, the copy with its PAGE notice, the page commands
and DWELL_SET. Dwell select itself is in Dwell. -/

namespace Sys2Proof.Machine

/-- The three stack operations (R135); a stack stands top first. -/
inductive StackOp where
  | push (p : Fin 15)
  | back
  | home
  deriving DecidableEq, Repr

/-- A stack operation on a stack (R135): a push onto a full stack loses the bottom page. -/
def StackOp.apply : StackOp → List (Fin 15) → List (Fin 15)
  | .push p, stack => p :: stack.take (Config.stackSize - 1)
  | .back, stack => stack.tail
  | .home, _ => []

/-- The next stack copied to the current stack (R136), with a PAGE notice when the current page changes (R138). -/
def State.copyStack (s : State) : State :=
  let t := { s with menu := { s.menu with current := s.menu.next } }
  if t.currentPage = s.currentPage then t
  else t.post .both (.page t.currentPage t.menu.current.length s.port.lastSeq)

/-- A stack operation taken (R134): on the next stack, and while the port is DARK on the current stack at once. -/
def State.stackOp (s : State) (op : StackOp) : State :=
  let t := { s with menu := { s.menu with next := op.apply s.menu.next } }
  if s.port.mode = .dark then t.copyStack else t

/-- The values of a page command's reply (R137): the next stack's top page and its depth. -/
def State.pageValues (s : State) : List Byte := [byteOf (topPage s.menu.next).val, byteOf s.menu.next.length]

/-- PAGE_PUSH (R137). -/
def pagePushWork (page : Byte) (s : State) : State × Reply :=
  match pageOf page with
  | none => (s, { mtype := 0x0D, code := .range, values := [] })
  | some p => (s.stackOp (.push p), { mtype := 0x0D, code := .ok, values := (s.stackOp (.push p)).pageValues })

/-- PAGE_BACK (R137). -/
def pageBackWork (s : State) : State × Reply :=
  (s.stackOp .back, { mtype := 0x0E, code := .ok, values := (s.stackOp .back).pageValues })

/-- PAGE_HOME (R137). -/
def pageHomeWork (s : State) : State × Reply :=
  (s.stackOp .home, { mtype := 0x0F, code := .ok, values := (s.stackOp .home).pageValues })

/-- DWELL_SET (R145): 0 is off, 1 is clamped to 2, above 60 to 60. -/
def dwellSetWork (n : Link) (dw : Byte) (s : State) : State × Reply :=
  let v := if dw = 0 then 0 else clampNat 2 60 dw.toNat
  let t := { s with menu := { s.menu with dw := v } }
  (t.postSettings n .dwellSet [byteOf v], { mtype := 0x10, code := doneCode (v != dw.toNat), values := [] })

end Sys2Proof.Machine
end

