-- ==== Sys2Proof/Machine/Resolver.lean ====
section
/-! DEFINITION. The pick resolver (chapter 6): the pick mode, the tally, the ranking and decision, the pick notice, the attempt
and the events that end it. -/

namespace Sys2Proof.Machine

/-! ## Pick mode (6.1) -/

/-- The pick mode and mode owner set taken together, with a MODE notice for each link that enables it (R95, R96). -/
def State.setMode (s : State) (m : PickMode) (owner : LinkSet) : State :=
  State.post { s with res := { s.res with mode := m, modeOwner := owner } } .both (.mode m owner)

/-- MODE_SET (R95). -/
def modeSetWork (n : Link) (mode : Byte) (s : State) : State × Reply :=
  match pickModeOf mode with
  | none => (s, { mtype := 0x19, code := .range, values := [] })
  | some m => (s.setMode m (.single n), { mtype := 0x19, code := .ok, values := [] })

/-- The mode's part of a LINK_RESET naming link n (R96). -/
def State.revertMode (s : State) (n : Link) : State :=
  if s.res.modeOwner = .single n then s.setMode .element .both else s

/-! ## The tally (6.3) -/

/-- A contribution to an existing entry (R109). -/
def TallyEntry.contribute (e : TallyEntry) (frame : Nat) (c : Candidate) : TallyEntry :=
  { e with
    score := satAdd Config.counterLimit e.score c.weight
    hits := satAdd 255 e.hits 1
    framesSeen := if frame = e.lastFrame then e.framesSeen else satAdd 15 e.framesSeen 1
    lastFrame := frame
    lastPoint := c.point
    lastElement := c.element
    tag := c.tag
    saturated := e.saturated || c.saturated }

/-- The entry a candidate record creates (R109). -/
def TallyEntry.create (frame : Nat) (c : Candidate) : TallyEntry where
  key := c.key
  cls := c.cls
  priority := c.priority
  route := c.route
  tag := c.tag
  score := c.weight
  hits := 1
  framesSeen := 1
  lastFrame := frame
  lastPoint := c.point
  lastElement := c.element
  saturated := c.saturated

/-- The contribution made to the entry with the record's key. -/
def contributeTo (frame : Nat) (c : Candidate) : List TallyEntry → List TallyEntry
  | [] => []
  | e :: rest => if e.key = c.key then e.contribute frame c :: rest else e :: contributeTo frame c rest

/-- A candidate record added to the tally (R109): to its entry, or as a new entry, or dropped with CANDIDATE_OVERFLOW. -/
def Resolver.addCandidate (r : Resolver) (frame : Nat) (c : Candidate) : Resolver :=
  if r.tally.any (fun e => e.key = c.key) then { r with tally := contributeTo frame c r.tally }
  else if r.tally.length < Config.tallySize then { r with tally := r.tally ++ [TallyEntry.create frame c] }
  else { r with overflow := true }

/-- A candidate set added to the tally in its order, with its GAP flag (R99). -/
def Resolver.addSet (r : Resolver) (frame : Nat) (set : List Candidate) (gap : Bool) : Resolver :=
  set.foldl (fun r c => r.addCandidate frame c) { r with gap := r.gap || gap }

/-- The withdrawn set applied to the tally (R110); only a set from a frame start marks the attempt. -/
def Resolver.withdraw (r : Resolver) (segs : List Nat) (atFrameStart : Bool) : Resolver :=
  let kept := r.tally.filter (fun e => !segs.contains e.key.seg)
  let marks := atFrameStart && (r.attempt == .gathering || r.attempt == .closing) && kept.length != r.tally.length
  { r with tally := kept, withdrawn := r.withdrawn || marks }

/-! ## Ranking and decision (6.4) -/

/-- An element's rank: ANY before element 0 (R111). -/
def elementRank : Option Nat → Nat
  | none => 0
  | some e => e + 1

/-- The ranking's order (R111): priority, then score, the higher first; then segment, then element, the lower first. -/
def TallyEntry.before (a b : TallyEntry) : Bool :=
  if a.priority ≠ b.priority then decide (b.priority < a.priority)
  else if a.score ≠ b.score then decide (b.score < a.score)
  else if a.key.seg ≠ b.key.seg then decide (a.key.seg < b.key.seg)
  else decide (elementRank a.key.element < elementRank b.key.element)

/-- An entry put at its place in a ranked list. -/
def rankInsert (e : TallyEntry) : List TallyEntry → List TallyEntry
  | [] => [e]
  | f :: rest => if e.before f then e :: f :: rest else f :: rankInsert e rest

/-- The tally ranked (R111). -/
def rank : List TallyEntry → List TallyEntry
  | [] => []
  | e :: rest => rankInsert e (rank rest)

/-- The group G: the entries at the top priority, in ranking order (R111). -/
def topGroup (tally : List TallyEntry) : List TallyEntry :=
  match rank tally with
  | [] => []
  | e :: rest => e :: rest.filter (fun f => f.priority = e.priority)

/-- The leader meets the threshold (R111). -/
def meetsThreshold (t : Nat) (leader : TallyEntry) : Bool := decide (t ≤ leader.score)

/-- The leader meets the margin against the rest of its group (R111). -/
def meetsMargin (d : Nat) (leader : TallyEntry) : List TallyEntry → Bool
  | [] => true
  | second :: _ => decide (second.score + d ≤ leader.score)

/-- What an attempt is decided to be (R112 to R115), before it is formed into a notice. -/
inductive Decision where
  | pointFromCross
  | missedNone
  | missedWeak
  | ambiguous (listed : List TallyEntry)
  | menu (leader : TallyEntry)
  | element (leader : TallyEntry)
  | pointFromLeader (leader : TallyEntry)
  deriving DecidableEq, Repr

/-- R112's exception: a MENU leader that meets both the threshold and the margin. -/
def menuWins (r : Resolver) : Bool :=
  match topGroup r.tally with
  | [] => false
  | leader :: rest => leader.cls == .menu && meetsThreshold r.t leader && meetsMargin r.d leader rest

/-- The decision (R112, R113, R114, R115, in this order). -/
def decideOutcome (r : Resolver) (cross : CrossState) : Decision :=
  if r.mode == .point && cross == .tracking && !menuWins r then .pointFromCross
  else
    match topGroup r.tally with
    | [] => .missedNone
    | leader :: rest =>
      if !meetsThreshold r.t leader then .missedWeak
      else if !meetsMargin r.d leader rest then .ambiguous ((leader :: rest).take Config.ambiguousCap)
      else if leader.cls == .menu then .menu leader
      else
        match r.mode with
        | .element => .element leader
        | .point => .pointFromLeader leader

/-! ## The pick notice (6.5) -/

/-- The flags an attempt gives each of its outcomes (R117). -/
def Resolver.noticeFlags (r : Resolver) : PickFlags where
  gap := r.gap
  overflow := r.overflow
  withdrawn := r.withdrawn
  elementSaturated := false
  saturated := false
  snapped := false
  dwell := false

/-- What a primary part says of a tally entry (R116). -/
def TallyEntry.picked (e : TallyEntry) : Picked where
  seg := e.key.seg
  whole := e.key.element.isNone
  element := e.lastElement
  saturated := e.saturated
  tag := e.tag
  score := e.score
  hits := e.hits
  framesSeen := e.framesSeen

/-- A tally entry as an AMBIGUOUS outcome lists it (R116). -/
def TallyEntry.listed (e : TallyEntry) : Listed where
  seg := e.key.seg
  whole := e.key.element.isNone
  element := e.lastElement
  saturated := e.saturated
  tag := e.tag
  score := e.score
  priority := e.priority

/-- The notice of an outcome without a primary part (R116). -/
def Resolver.bareNotice (r : Resolver) (kind : OutcomeKind) (reason : PickReason) : PickNotice where
  kind := kind
  attempt := r.number
  frames := r.frames
  reason := reason
  flags := r.noticeFlags
  primary := none
  list := []

/-- The notice of an outcome with a primary part, its loft point converted now (R116, R161). -/
def primaryNotice (r : Resolver) (c : Coord) (kind : OutcomeKind) (source : PointSource) (picked : Option Picked)
    (at_ : ScreenPoint) : PickNotice :=
  let loft := c.convert at_
  { r.bareNotice kind .absent with
    flags :=
      { r.noticeFlags with
        elementSaturated := (match picked with | some p => p.saturated | none => false)
        saturated := loft.saturated
        snapped := loft.snapped }
    primary := some { source := source, picked := picked, screen := at_, loftX := loft.x, loftY := loft.y } }

/-- The notice of an AMBIGUOUS outcome (R114, R116). -/
def ambiguousNotice (r : Resolver) (listed : List TallyEntry) : PickNotice :=
  { r.bareNotice .ambiguous .absent with
    flags := { r.noticeFlags with elementSaturated := listed.any (fun e => e.saturated) }
    list := listed.map TallyEntry.listed }

/-- A MENU outcome sends its notice when the item's binding in force is NOTIFY or has its notify flag, or is absent (R118). -/
def menuNotifies (s : State) (seg : Nat) : Bool :=
  match s.entry seg with
  | none => true
  | some e =>
    match e.binding with
    | none => true
    | some b => b.action == .notify || b.notify

/-- The item's action run from the binding in force (R139, R96; log 30). -/
def State.runMenuAction (s : State) (seg : Nat) : State :=
  match s.entry seg with
  | none => s
  | some e =>
    match e.binding with
    | none => s
    | some b =>
      match b.action with
      | .notify => s
      | .page p => s.stackOp (.push p)
      | .back => s.stackOp .back
      | .home => s.stackOp .home
      | .mode m => s.setMode m e.owner

/-- An echo added for a segment (R44): refreshed, or added as newest, the oldest leaving a full list. -/
def addEcho (length : Nat) (seg : Nat) (list : List Echo) : List Echo :=
  if length = 0 then list
  else
    let others := list.filter (fun e => e.seg != seg)
    let room := if others.length < Config.echoListSize then others else others.tail
    room ++ [{ seg := seg, count := length }]

/-- An echo added to the directory's echo list (R119, R44). -/
def State.echo (s : State) (seg : Nat) : State :=
  { s with dir := { s.dir with echoes := addEcho s.dir.echoLength seg s.dir.echoes } }

/-- A MENU outcome of an item, whoever decided it: its notice queued or withheld, counted, echoed, its action run, in this
order (R115, R118, R119, R139, R143). -/
def State.menuOutcome (s : State) (seg : Nat) (route : LinkSet) (x : PickNotice) : State :=
  let a := if menuNotifies s seg then s.post route (.pick x) else s
  State.runMenuAction (State.echo (a.count .picks) seg) seg

/-- An outcome's notices, its counter, its echo and its action (R115, R118, R119). -/
def State.outcome (s : State) : Decision → State
  | .pointFromCross =>
    (s.post s.res.modeOwner
      (.pick (primaryNotice s.res s.coord .point .cross none { x := s.cross.x, y := s.cross.y }))).count .picks
  | .missedNone => (s.post s.res.modeOwner (.pick (s.res.bareNotice .missed .none))).count .missed
  | .missedWeak => (s.post s.res.modeOwner (.pick (s.res.bareNotice .missed .weak))).count .missed
  | .ambiguous listed =>
    (s.post (listed.foldl (fun r e => r.union e.route) .none) (.pick (ambiguousNotice s.res listed))).count .ambiguous
  | .menu e =>
    s.menuOutcome e.key.seg e.route (primaryNotice s.res s.coord .menu .none (some e.picked) e.lastPoint)
  | .element e =>
    State.echo
      ((s.post e.route (.pick (primaryNotice s.res s.coord .element .none (some e.picked) e.lastPoint))).count .picks)
      e.key.seg
  | .pointFromLeader e =>
    (s.post e.route (.pick (primaryNotice s.res s.coord .point .element (some e.picked) e.lastPoint))).count .picks

/-- A LOST outcome's notice and counter (R118, R119). -/
def State.lostOutcome (s : State) (reason : PickReason) : State :=
  (s.post s.res.modeOwner (.pick (s.res.bareNotice .lost reason))).count .lost

/-! ## The attempt (6.2) -/

/-- An attempt's start: numbered, counted and set up (R97, R98). `fresh` marks one that begins at a frame end in progress: the
history is closed while the port is still IN_FRAME only between the frame's end and the end of its work (R56, R10). -/
def State.setUpAttempt (s : State) : State :=
  let r := s.res
  State.count
    { s with
      res :=
        { r with
          number := r.number + 1, frames := 0, releaseSeen := false, gap := false, overflow := false, withdrawn := false,
          closing := 0, tally := [], attempt := .gathering, fresh := !s.hist.isOpen && s.port.mode == .inFrame } }
    .attempts

/-- The tally emptied and the attempt state set, once an outcome has been formed (R103, R108). -/
def State.endAttempt (s : State) (next : AttemptState) : State :=
  { s with res := { s.res with tally := [], attempt := next } }

/-- A tip-down event taken in IDLE (R98): ignored while MUTED; an attempt that ends at once LOST, NO_FRAMES while DARK, followed
by R103 with release seen no; an attempt otherwise. -/
def State.tipDownIdle (s : State) : State :=
  if s.pen.muted then s
  else
    let t := s.setUpAttempt
    if s.port.mode = .dark then
      (t.lostOutcome .noFrames).endAttempt (if s.pen.tipDebounced = .down then .held else .idle)
    else t

/-- What follows an outcome (R103). -/
def State.afterOutcome (s : State) : State :=
  match s.pen.tipDebounced with
  | .up => s.endAttempt .idle
  | .down => if s.res.releaseSeen then (s.endAttempt .idle).tipDownIdle else s.endAttempt .held

/-- The resolution of an attempt (R102, 6.4): decided, made known, and followed by R103. -/
def State.resolve (s : State) : State := (s.outcome (decideOutcome s.res s.cross.state)).afterOutcome

/-- An event that ends an attempt in GATHERING or CLOSING early, as LOST with a reason (R104 to R107); in IDLE or HELD it finds no
attempt. -/
def State.loseAttempt (s : State) (reason : PickReason) : State :=
  match s.res.attempt with
  | .gathering => (s.lostOutcome reason).afterOutcome
  | .closing => (s.lostOutcome reason).afterOutcome
  | .idle => s
  | .held => s

/-- The resolver's frame-end work (R100): an attempt in GATHERING counts the frame, unless it began at this frame end, and at N
enters CLOSING with nothing to wait for and is resolved. -/
def resolverCount (s : State) : State :=
  if s.res.attempt = .gathering ∧ s.res.fresh = false then
    let t := { s with res := { s.res with frames := s.res.frames + 1 } }
    if s.res.n ≤ s.res.frames + 1 then
      State.resolve { t with res := { t.res with attempt := .closing, closing := 0 } }
    else t
  else s

/-- The correlation of a hit is finished (R102): an attempt in CLOSING counts it, and is resolved at the last. -/
def State.hitDone (s : State) : State :=
  if s.res.attempt = .closing then
    let t := { s with res := { s.res with closing := s.res.closing - 1 } }
    if s.res.closing ≤ 1 then t.resolve else t
  else s

/-- A tip-up event (R101). -/
def State.tipUp (s : State) : State :=
  match s.res.attempt with
  | .gathering =>
    let t :=
      { s with res := { s.res with releaseSeen := true, attempt := .closing, closing := s.pen.waiting.length } }
    if s.pen.waiting.length = 0 then t.resolve else t
  | .held => s.endAttempt .idle
  | .idle => s
  | .closing => s

/-- A tip-down event (R98, R101): it begins an attempt in IDLE and changes nothing in the other states. -/
def State.tipDown (s : State) : State :=
  match s.res.attempt with
  | .idle => s.tipDownIdle
  | .gathering => s
  | .closing => s
  | .held => s

/-- PICK_CANCEL (R107). -/
def pickCancelWork (s : State) : State × Reply :=
  match s.res.attempt with
  | .gathering => (s.loseAttempt .cancelled, { mtype := 0x1A, code := .ok, values := [] })
  | .closing => (s.loseAttempt .cancelled, { mtype := 0x1A, code := .ok, values := [] })
  | .idle => (s, { mtype := 0x1A, code := .state, values := [] })
  | .held => (s, { mtype := 0x1A, code := .state, values := [] })

end Sys2Proof.Machine
end

