-- ==== Sys2Proof/Machine/Directory.lean ====
section
/-! DEFINITION. The segment directory (chapter 2): the table of entries, the change list, the release sweeps, the echo list, and
the directory commands. -/

namespace Sys2Proof.Machine

/-! ## The table of entries -/

/-- A table with an entry put in its place, in rising order of segment number. -/
def Dir.put (seg : Nat) (e : Entry) : Dir → Dir
  | [] => [(seg, e)]
  | (k, f) :: rest =>
    if seg < k then (seg, e) :: (k, f) :: rest
    else if seg = k then (seg, e) :: rest
    else (k, f) :: Dir.put seg e rest

/-- A table with an entry removed: the segment is FREE (R21). -/
def Dir.remove (seg : Nat) (d : Dir) : Dir := d.filter (fun p => p.1 != seg)

/-- A table in the one form it is kept in (log 20): numbers 0..1022, strictly rising, each with a non-empty owner set. -/
def Dir.wf (d : Dir) : Bool :=
  decide ((d.map (fun p => p.1)).Pairwise (fun a b => a < b))
    && d.all (fun p => decide (p.1 < Config.crossSegment) && !p.2.owner.isEmpty)

/-! ## Changes -/

/-- The segment a change names; VIEW_SET names none (R38). -/
def ChangeOp.seg : ChangeOp → Option Nat
  | .define seg _ => some seg
  | .set seg _ => some seg
  | .share seg => some seg
  | .release seg => some seg
  | .menu seg _ => some seg
  | .view _ => none

/-- The message type of a change's command (R193). -/
def ChangeOp.mtype : ChangeOp → BitVec 6
  | .define _ _ => 0x01
  | .set _ _ => 0x02
  | .share _ => 0x03
  | .release _ => 0x04
  | .menu _ _ => 0x05
  | .view _ => 0x07

/-- Whether a change is a VIEW_SET. -/
def ChangeOp.isView : ChangeOp → Bool
  | .view _ => true
  | _ => false

/-- Checks 2 and 3 of R27 against a table: DENIED, STATE, or nothing against it. -/
def ChangeOp.refusal (op : ChangeOp) (issuer : Link) (d : Dir) : Option ReplyCode :=
  match op with
  | .define seg _ =>
    match Dir.find d seg with
    | none => none
    | some e => if e.owner.has issuer then some .state else some .denied
  | .set seg _ => if (ownerOf (Dir.find d seg)).has issuer then none else some .denied
  | .share seg =>
    if (ownerOf (Dir.find d seg)).has issuer then
      if ownerOf (Dir.find d seg) = .both then some .state else none
    else some .denied
  | .release seg => if (ownerOf (Dir.find d seg)).has issuer then none else some .denied
  | .menu seg _ =>
    match Dir.find d seg with
    | none => some .denied
    | some e => if !e.owner.has issuer then some .denied else if e.cls = .menu then none else some .state
  | .view _ => none

/-- A priority is held at 0 for MENU and MARK (2.1, R28; log 26). -/
def heldPriority (cls : SegClass) (p : Fin 8) : Fin 8 := if cls = .drawing then p else 0

/-- The entry a SEG_DEFINE makes (R29). -/
def DefineValues.entry (v : DefineValues) (issuer : Link) : Entry where
  owner := if v.share then .both else .single issuer
  cls := v.cls
  tag := v.tag
  visible := v.visible
  detectable := v.detectable
  intensity := v.intensity
  highlight := v.highlight
  priority := heldPriority v.cls v.priority
  granularity := v.granularity
  binding := none

/-- An entry with the attributes a SEG_SET names (R30). -/
def SetValues.applyTo (v : SetValues) (e : Entry) : Entry :=
  { e with
    tag := v.tag.getD e.tag
    visible := v.visible.getD e.visible
    detectable := v.detectable.getD e.detectable
    intensity := v.intensity.getD e.intensity
    highlight := v.highlight.getD e.highlight
    priority := heldPriority e.cls (v.priority.getD e.priority)
    granularity := v.granularity.getD e.granularity }

/-- A table with one entry's fields changed; a FREE segment stays FREE. -/
def Dir.change (seg : Nat) (f : Entry → Entry) (d : Dir) : Dir :=
  match Dir.find d seg with
  | some e => Dir.put seg (f e) d
  | none => d

/-- A table with one link removed from a segment's owner set; with no owner left the entry is FREE (R32, R21). -/
def Dir.disown (seg : Nat) (n : Link) (d : Dir) : Dir :=
  match Dir.find d seg with
  | some e =>
    let owner := e.owner.diff (.single n)
    if owner.isEmpty then Dir.remove seg d else Dir.put seg { e with owner := owner } d
  | none => d

/-- A change's effect on the table (R29 to R33); VIEW_SET has none there. -/
def ChangeOp.apply (op : ChangeOp) (issuer : Link) (d : Dir) : Dir :=
  match op with
  | .define seg v => Dir.put seg (v.entry issuer) d
  | .set seg v => Dir.change seg v.applyTo d
  | .share seg => Dir.change seg (fun e => { e with owner := .both }) d
  | .release seg => Dir.disown seg issuer d
  | .menu seg b => Dir.change seg (fun e => { e with binding := b }) d
  | .view _ => d

/-- A release sweep's effect on the table (R43). -/
def Dir.sweep (n : Link) : Dir → Dir
  | [] => []
  | (k, e) :: rest =>
    let owner := e.owner.diff (.single n)
    if owner.isEmpty then Dir.sweep n rest else (k, { e with owner := owner }) :: Dir.sweep n rest

/-- The pending sweeps' effect on the table (R37, R43). -/
def Dir.sweeps (set : LinkSet) (d : Dir) : Dir :=
  let a := if set.l0 then Dir.sweep .link0 d else d
  if set.l1 then Dir.sweep .link1 a else a

/-- A listed change's effect on the table once re-checked (R26, R37): a change that fails has none. -/
def Change.recheck (c : Change) (d : Dir) : Dir :=
  match c.op.refusal c.issuer d with
  | none => c.op.apply c.issuer d
  | some _ => d

/-- The projected directory (R26). -/
def Directory.projected (x : Directory) : Dir :=
  x.changes.foldl (fun d c => c.recheck d) (Dir.sweeps x.sweeps x.entries)

/-! ## Directory work -/

/-- A segment number added to a list that names each once (R39). -/
def addOnce (seg : Nat) (list : List Nat) : List Nat := if list.contains seg then list else list ++ [seg]

/-- A new table taken, where `freed` became FREE and `touched` became FREE or DEFINED: freed segments leave the echo list and
touched ones join the withdrawn set (R21). -/
def Directory.take (x : Directory) (entries : Dir) (freed touched : List Nat) : Directory :=
  { x with
    entries := entries
    echoes := x.echoes.filter (fun e => !freed.contains e.seg)
    withdrawn := touched.foldl (fun w k => addOnce k w) x.withdrawn }

/-- The segments a change makes FREE. -/
def ChangeOp.frees (op : ChangeOp) (issuer : Link) (d : Dir) : List Nat :=
  match op with
  | .release seg => if ownerOf (Dir.find d seg) = .single issuer then [seg] else []
  | _ => []

/-- The segments a change makes FREE or DEFINED (R21). -/
def ChangeOp.touches (op : ChangeOp) (issuer : Link) (d : Dir) : List Nat :=
  match op with
  | .define seg _ => [seg]
  | _ => op.frees issuer d

/-- The segments a sweep for a link makes FREE (R43). -/
def Dir.freedBySweep (n : Link) (d : Dir) : List Nat :=
  (d.filter (fun p => (p.2.owner.diff (.single n)).isEmpty)).map (fun p => p.1)

/-- A change applied in force (R37, R41): to the directory, or to the view for a VIEW_SET (R34). -/
def State.applyChange (s : State) (c : Change) : State :=
  let d := s.dir.entries
  let t :=
    { s with dir := s.dir.take (c.op.apply c.issuer d) (c.op.frees c.issuer d) (c.op.touches c.issuer d) }
  match c.op with
  | .view v => { t with coord := { t.coord with view := v } }
  | _ => t

/-- A change from the list, re-checked (R37), and applied or skipped (R38). -/
def State.applyListed (s : State) (c : Change) : State :=
  match c.op.refusal c.issuer s.dir.entries with
  | none => s.applyChange c
  | some reason =>
    (s.setFlag .changeSkipped).post (.single c.issuer) (.skipped reason c.op.mtype c.op.seg s.port.lastSeq)

/-- A release sweep applied in force (R43). -/
def State.applySweep (s : State) (n : Link) : State :=
  let d := s.dir.entries
  { s with dir := s.dir.take (Dir.sweep n d) (Dir.freedBySweep n d) (Dir.freedBySweep n d) }

/-- The first two steps of the frame-start work (R37), which are also the work at the entry into DARK (R40): the withdrawn set
begun anew (R39), the pending sweeps, then the change list from its head. -/
def State.applyStaged (s : State) : State :=
  let changes := s.dir.changes
  let sweeps := s.dir.sweeps
  let a := { s with dir := { s.dir with withdrawn := [], sweeps := .none, changes := [] } }
  let b := if sweeps.l0 then a.applySweep .link0 else a
  let c := if sweeps.l1 then b.applySweep .link1 else b
  changes.foldl State.applyListed c

/-- The echo step (R46): the shown set and style taken, then every count decreased and finished echoes gone. -/
def State.echoStep (s : State) : State :=
  { s with
    dir :=
      { s.dir with
        shown := s.dir.echoes.map (fun e => e.seg)
        shownStyle := s.dir.echoStyle
        echoes := (s.dir.echoes.map (fun e => { e with count := e.count - 1 })).filter (fun e => e.count != 0) } }

/-- A withdrawn set reaching the dwell state (R144). -/
def Menu.withdraw (m : Menu) (segs : List Nat) : Menu :=
  let names (o : Option Nat) : Bool := match o with | some k => segs.contains k | none => false
  { m with
    leading := if names m.leading then none else m.leading
    dwellCount := if names m.leading then 0 else m.dwellCount
    latched := if names m.latched then none else m.latched }

/-- The withdrawn set handed to the resolver and the menu controller (R39, R110, R144). -/
def State.handWithdrawn (s : State) (atFrameStart : Bool) : State :=
  { s with res := s.res.withdraw s.dir.withdrawn atFrameStart, menu := s.menu.withdraw s.dir.withdrawn }

/-! ## Taking a change (2.3) -/

/-- The frame number of an OK or CLAMPED reply (R27). -/
def State.frameNumber (s : State) : Byte := s.port.lastSeq + 1

/-- A change command that has passed check 1: checks 2 to 6 of R27 against the projected directory, and then the change appended
to the list, or applied at once while the port is DARK (R41). -/
def State.takeChange (s : State) (n : Link) (op : ChangeOp) (clamped : Bool) : State × Reply :=
  match op.refusal n s.dir.projected with
  | some code => (s, { mtype := op.mtype, code := code, values := [] })
  | none =>
    let done : Reply := { mtype := op.mtype, code := doneCode clamped, values := [s.frameNumber] }
    if s.port.mode = .dark then
      ((State.applyChange { s with dir := { s.dir with withdrawn := [] } } { issuer := n, op := op }).handWithdrawn false, done)
    else if Config.changeListSize ≤ s.dir.changes.length then (s, { mtype := op.mtype, code := .full, values := [] })
    else ({ s with dir := { s.dir with changes := s.dir.changes ++ [{ issuer := n, op := op }] } }, done)

/-- A change command refused by check 1 (R27). -/
def State.rangeRefusal (s : State) (mtype : BitVec 6) : State × Reply := (s, { mtype := mtype, code := .range, values := [] })

/-- Whether a segment field names no directory entry: 1023 or more (R23). -/
def badSeg (seg : Word) : Bool := decide (Config.crossSegment ≤ seg.toNat)

/-- SEG_DEFINE (R29). -/
def segDefineWork (n : Link) (a : SegDefineArgs) (s : State) : State × Reply :=
  match classOf a.cls, highlightOf a.highlight with
  | some cls, some highlight =>
    if badSeg a.seg then s.rangeRefusal 0x01
    else
      s.takeChange n
        (.define a.seg.toNat
          { cls := cls, tag := a.tag, visible := a.switches.getLsbD 0, detectable := a.switches.getLsbD 1,
            intensity := intensityOf a.intensity, highlight := highlight,
            priority := heldPriority cls (priorityOf a.priority), granularity := granularityOf (a.switches.getLsbD 3),
            share := a.switches.getLsbD 2 })
        (decide (3 < a.intensity.toNat) || (cls == .drawing && decide (7 < a.priority.toNat)))
  | _, _ => s.rangeRefusal 0x01

/-- A value that a present bit names (12.3). -/
def named {α : Type} (bit : Bool) (v : α) : Option α := if bit then some v else none

/-- SEG_SET (R30): the fields its present bits name; the priority of a segment whose projected class is MENU or MARK is
stored as 0 and clamps nothing (R28). -/
def segSetWork (n : Link) (a : SegSetArgs) (s : State) : State × Reply :=
  let has (i : Nat) : Bool := a.present.getLsbD i
  let highlight := highlightOf a.highlight
  if badSeg a.seg || has 7 || (has 4 && highlight.isNone) then s.rangeRefusal 0x02
  else
    let cls := match Dir.find s.dir.projected a.seg.toNat with | some e => e.cls | none => .drawing
    s.takeChange n
      (.set a.seg.toNat
        { tag := named (has 0) a.tag, visible := named (has 1) (a.switches.getLsbD 0),
          detectable := named (has 2) (a.switches.getLsbD 1), intensity := named (has 3) (intensityOf a.intensity),
          highlight := if has 4 then highlight else none,
          priority := named (has 5) (heldPriority cls (priorityOf a.priority)),
          granularity := named (has 6) (granularityOf (a.switches.getLsbD 3)) })
      ((has 3 && decide (3 < a.intensity.toNat)) || (has 5 && cls == .drawing && decide (7 < a.priority.toNat)))

/-- SEG_SHARE (R31). -/
def segShareWork (n : Link) (seg : Word) (s : State) : State × Reply :=
  if badSeg seg then s.rangeRefusal 0x03 else s.takeChange n (.share seg.toNat) false

/-- SEG_RELEASE (R32). -/
def segReleaseWork (n : Link) (seg : Word) (s : State) : State × Reply :=
  if badSeg seg then s.rangeRefusal 0x04 else s.takeChange n (.release seg.toNat) false

/-- The binding of a SEG_MENU payload (R33, 12.3): FFh unbinds and the other bytes are disregarded; none is check 1's RANGE. -/
def bindingOf (a : SegMenuArgs) : Option (Option Binding) :=
  if a.page = 0xFF then some none
  else
    match boundPageOf a.page, menuActionOf a.action a.target with
    | some page, some action => some (some { page := page, action := action, notify := yes a.notify })
    | _, _ => none

/-- SEG_MENU (R33). -/
def segMenuWork (n : Link) (a : SegMenuArgs) (s : State) : State × Reply :=
  match bindingOf a with
  | none => s.rangeRefusal 0x05
  | some b => if badSeg a.seg then s.rangeRefusal 0x05 else s.takeChange n (.menu a.seg.toNat b) false

/-- VIEW_SET (R34, R167): Sc clamped to 1..16,777,215. -/
def viewSetWork (n : Link) (a : ViewSetArgs) (s : State) : State × Reply :=
  match orientationOf a.orientation with
  | none => s.rangeRefusal 0x07
  | some o =>
    s.takeChange n (.view { orientation := o, ox := a.ox, oy := a.oy, sc := clampNat 1 16777215 a.sc.toNat })
      (outside 1 16777215 a.sc.toNat)

/-- The switches byte of an entry, its share bit 0 (R192). -/
def Entry.switches (e : Entry) : Byte :=
  byteOf ((if e.visible then 1 else 0) + (if e.detectable then 2 else 0) + (if e.granularity = .element then 8 else 0))

/-- The fields of an entry as SEG_QUERY's reply carries them, from state to notify (R192, R21; log 18). -/
def entryBytes : Option Entry → List Byte
  | none => [0, 0, 0, 0, 0, 0, 0, 0, 0, 0xFF, 0, 0, 0]
  | some e =>
    [1, byteOf e.owner.code, byteOf e.cls.code] ++ bytes16 e.tag
      ++ [e.switches, byteOf e.intensity.val, byteOf e.highlight.code, byteOf e.priority.val]
      ++ (match e.binding with
          | some b => [byteOf b.page.code, byteOf b.action.code, byteOf b.action.target, boolByte b.notify]
          | none => [0xFF, 0, 0, 0])

/-- SEG_QUERY's change-pending indication (R35). -/
def Directory.changePending (x : Directory) (seg : Nat) : Bool :=
  x.changes.any (fun c => c.op.seg == some seg) || (ownerOf (Dir.find x.entries seg)).meets x.sweeps

/-- SEG_QUERY (R35): the entry in force and the change-pending indication. -/
def segQueryWork (seg : Word) (s : State) : State × Reply :=
  if badSeg seg then s.rangeRefusal 0x06
  else
    (s, { mtype := 0x06, code := .ok,
          values := entryBytes (s.entry seg.toNat) ++ [boolByte (s.dir.changePending seg.toNat)] })

/-- ECHO_SET (R45). -/
def echoSetWork (n : Link) (e : Word) (style : Byte) (s : State) : State × Reply :=
  match echoStyleOf style with
  | none => (s, { mtype := 0x08, code := .range, values := [] })
  | some st =>
    let v := clampNat 0 255 e.toNat
    let t := { s with dir := { s.dir with echoLength := v, echoStyle := st } }
    (t.postSettings n .echoSet (wordBytes v ++ [style]),
      { mtype := 0x08, code := doneCode (outside 0 255 e.toNat), values := [] })

/-- The directory's part of a LINK_RESET naming link n (R42): its changes leave the list, and its sweep is recorded, or applied at
once while the port is DARK with its withdrawn set handed on (R43). -/
def State.resetLinkDirectory (s : State) (n : Link) : State :=
  let a := { s with dir := { s.dir with changes := s.dir.changes.filter (fun c => c.issuer != n) } }
  if s.port.mode = .dark then
    (State.applySweep { a with dir := { a.dir with withdrawn := [] } } n).handWithdrawn false
  else { a with dir := { a.dir with sweeps := a.dir.sweeps.union (.single n) } }

end Sys2Proof.Machine
end

