-- ==== Sys2Proof/Machine/Dwell.lean ====
section
/-! DEFINITION. Dwell select (8.3): the frame sums, the dwell item, the dwell state and the dwell choice. -/

namespace Sys2Proof.Machine

/-- A candidate's vote taken into its item's entry (R140); the hit count stays within its range 0..255 (log 22). -/
def FrameSum.add (e : FrameSum) (c : Candidate) (gap : Bool) : FrameSum :=
  { e with
    weight := e.weight + c.weight
    hits := satAdd 255 e.hits 1
    tag := c.tag
    point := c.point
    element := c.element
    saturated := c.saturated
    gap := e.gap || gap }

/-- The entry a candidate makes for its item (R140). -/
def FrameSum.create (c : Candidate) (gap : Bool) : FrameSum where
  seg := c.key.seg
  weight := c.weight
  hits := 1
  route := c.route
  tag := c.tag
  point := c.point
  element := c.element
  saturated := c.saturated
  gap := gap

/-- The vote added to the entry of its segment. -/
def addToSum (c : Candidate) (gap : Bool) : List FrameSum → List FrameSum
  | [] => []
  | e :: rest => if e.seg = c.key.seg then e.add c gap :: rest else e :: addToSum c gap rest

/-- A candidate added to the frame sums (R140): DRAWING candidates and new items of full sums are passed over. -/
def addCandidateToSums (gap : Bool) (sums : List FrameSum) (c : Candidate) : List FrameSum :=
  if c.cls ≠ .menu then sums
  else if sums.any (fun e => e.seg = c.key.seg) then addToSum c gap sums
  else if sums.length < Config.frameSumsSize then sums ++ [FrameSum.create c gap]
  else sums

/-- A candidate set added to the frame sums in its order (R140). -/
def Menu.addSet (m : Menu) (set : List Candidate) (gap : Bool) : Menu :=
  { m with sums := set.foldl (addCandidateToSums gap) m.sums }

/-- The entry with the greatest total weight, and of equal weights the lowest segment (R141). -/
def heaviest : List FrameSum → Option FrameSum
  | [] => none
  | e :: rest =>
    match heaviest rest with
    | none => some e
    | some f => if f.weight < e.weight ∨ (f.weight = e.weight ∧ e.seg < f.seg) then some e else some f

/-- The frame's dwell item, as its entry in the frame sums (R141). -/
def State.dwellItem (s : State) : Option FrameSum :=
  if s.res.attempt = .idle then heaviest s.menu.sums else none

/-- Steps 1 and 2 of R142: the latch cleared where the pen has left it, the leading item and the count brought up to date. -/
def Menu.follow (m : Menu) (item : Option Nat) : Menu :=
  let m := if m.latched = item then m else { m with latched := none }
  match item with
  | none => { m with leading := none, dwellCount := 0 }
  | some k =>
    if m.leading = some k then { m with dwellCount := satAdd 60 m.dwellCount 1 }
    else { m with leading := some k, dwellCount := 1 }

/-- The pick notice of a dwell choice (R143). -/
def dwellNotice (s : State) (number : Byte) (count : Nat) (e : FrameSum) : PickNotice :=
  let loft := s.coord.convert e.point
  { kind := .menu
    attempt := number
    frames := min count 15
    reason := .absent
    flags :=
      { gap := e.gap, overflow := false, withdrawn := false, elementSaturated := e.saturated, saturated := loft.saturated,
        snapped := loft.snapped, dwell := true }
    primary :=
      some
        { source := .none
          picked :=
            some
              { seg := e.seg, whole := true, element := e.element, saturated := e.saturated, tag := e.tag,
                score := e.weight, hits := e.hits, framesSeen := min count 15 }
          screen := e.point
          loftX := loft.x
          loftY := loft.y }
    list := [] }

/-- A dwell choice (R143): the attempt number and ATTEMPTS increased, then the MENU outcome. -/
def State.dwellChoice (s : State) (e : FrameSum) : State :=
  let t := State.count { s with res := { s.res with number := s.res.number + 1 } } .attempts
  t.menuOutcome e.seg e.route (dwellNotice t t.res.number t.menu.dwellCount e)

/-- The menu controller's frame-end work (R141, R142). -/
def menuDwell (s : State) : State :=
  let item := s.dwellItem
  let t := { s with menu := s.menu.follow (item.map (fun e => e.seg)) }
  match item with
  | none => t
  | some e =>
    if t.menu.dw ≠ 0 ∧ t.menu.dw ≤ t.menu.dwellCount ∧ t.menu.latched ≠ some e.seg then
      let u := t.dwellChoice e
      { u with menu := { u.menu with latched := some e.seg, dwellCount := 0 } }
    else t

/-- The menu controller's work at the entry into DARK (R136, R144): the stack copy with its notice, the frame sums, leading item
and dwell count emptied, the latched item kept. -/
def State.menuDark (s : State) : State :=
  let t := s.copyStack
  { t with menu := { t.menu with sums := [], leading := none, dwellCount := 0 } }

/-- The menu controller's frame-start work (R136). -/
def State.menuFrameStart (s : State) : State :=
  let t := s.copyStack
  { t with menu := { t.menu with sums := [] } }

end Sys2Proof.Machine
end

