-- ==== Sys2Proof/Machine/Filter.lean ====
section
/-! DEFINITION. The pick filter list (chapter 7): the match, the walk, and the four commands. -/

namespace Sys2Proof.Machine

/-- What the correlator presents of a candidate (R86). -/
structure Presented where
  seg : Nat
  cls : SegClass
  tag : Word
  owner : LinkSet
  deriving DecidableEq, Repr

/-- The answer of a walk (R125): rejected, or a priority and a route set. -/
inductive WalkAnswer where
  | rejected
  | stands (priority : Fin 8) (route : LinkSet)
  deriving DecidableEq, Repr

/-- The candidate class is one the entry can match (R123). -/
def FilterEntry.matchesClass (e : FilterEntry) : SegClass → Bool
  | .drawing => e.matchDrawing
  | .menu => e.matchMenu
  | .mark => false

/-- A filter entry matches a candidate when its five conditions hold (R124). -/
def FilterEntry.matchesCandidate (e : FilterEntry) (p : Presented) : Bool :=
  e.enabled && p.owner.has e.author && e.matchesClass p.cls && decide (e.segLow ≤ p.seg) && decide (p.seg ≤ e.segHigh)
    && (p.tag ^^^ e.tagValue) &&& e.tagMask == 0

/-- The walk of one candidate over the list from index 0 (R125, R126). -/
def walk (p : Presented) : List FilterEntry → Fin 8 → LinkSet → WalkAnswer
  | [], priority, route => .stands priority route
  | e :: rest, priority, route =>
    if !e.matchesCandidate p then walk p rest priority route
    else
      match e.action with
      | .reject => .rejected
      | .priority q => if e.final then .stands q route else walk p rest q route
      | .route r => if e.final then .stands priority r else walk p rest priority r

/-- An accepted edit: the new list, with the edit count increased by one (R122). -/
def State.editFilters (s : State) (entries : List FilterEntry) : State :=
  { s with filt := { entries := entries, editCount := s.filt.editCount + 1 } }

/-- FILTER_INSERT (R128): the checks in their order, then the entry placed at its index or at the tail. -/
def filterInsertWork (n : Link) (a : FilterInsertArgs) (s : State) : State × Reply :=
  let refuse (code : ReplyCode) : State × Reply := (s, { mtype := 0x09, code := code, values := [] })
  let lo := a.segLow.toNat
  let hi := a.segHigh.toNat
  match filterActionOf a.action a.arg with
  | none => refuse .range
  | some action =>
    if (!a.classMatch.getLsbD 0 && !a.classMatch.getLsbD 1) || decide (1022 < lo) || decide (1022 < hi) || decide (hi < lo) then
      refuse .range
    else if Config.filterListSize ≤ s.filt.entries.length then refuse .full
    else
      let entry : FilterEntry :=
        { author := n, enabled := yes a.enabled, matchDrawing := a.classMatch.getLsbD 0,
          matchMenu := a.classMatch.getLsbD 1, segLow := lo, segHigh := hi, tagValue := a.tagValue,
          tagMask := a.tagMask, action := action, final := yes a.final }
      let at_ := min a.index.toNat s.filt.entries.length
      let t := s.editFilters (s.filt.entries.take at_ ++ entry :: s.filt.entries.drop at_)
      (t, { mtype := 0x09, code := doneCode (a.action == 1 && decide (7 < a.arg.toNat)),
            values := [byteOf at_, t.filt.editCount] })

/-- FILTER_DELETE (R129). -/
def filterDeleteWork (n : Link) (index : Byte) (s : State) : State × Reply :=
  match s.filt.entries[index.toNat]? with
  | none => (s, { mtype := 0x0A, code := .state, values := [] })
  | some e =>
    if e.author ≠ n then (s, { mtype := 0x0A, code := .denied, values := [] })
    else
      let t := s.editFilters (s.filt.entries.eraseIdx index.toNat)
      (t, { mtype := 0x0A, code := .ok, values := [t.filt.editCount] })

/-- FILTER_ENABLE (R130). -/
def filterEnableWork (n : Link) (index enabled : Byte) (s : State) : State × Reply :=
  match s.filt.entries[index.toNat]? with
  | none => (s, { mtype := 0x0B, code := .state, values := [] })
  | some e =>
    if e.author ≠ n then (s, { mtype := 0x0B, code := .denied, values := [] })
    else
      let t := s.editFilters (s.filt.entries.set index.toNat { e with enabled := yes enabled })
      (t, { mtype := 0x0B, code := .ok, values := [t.filt.editCount] })

/-- The fields of a filter entry as FILTER_READ's reply carries them (R192). -/
def FilterEntry.bytes (e : FilterEntry) : List Byte :=
  [byteOf (linkNumber e.author), boolByte e.enabled,
    byteOf ((if e.matchDrawing then 1 else 0) + (if e.matchMenu then 2 else 0))]
    ++ wordBytes e.segLow ++ wordBytes e.segHigh ++ bytes16 e.tagValue ++ bytes16 e.tagMask
    ++ [byteOf e.action.code, byteOf e.action.arg, boolByte e.final]

/-- FILTER_READ (R131): the count, the edit count, and the entry at the index if one stands there. -/
def filterReadWork (index : Byte) (s : State) : State × Reply :=
  let head := [byteOf s.filt.entries.length, s.filt.editCount]
  (s, { mtype := 0x0C, code := .ok,
        values :=
          match s.filt.entries[index.toNat]? with
          | some e => head ++ [1] ++ e.bytes
          | none => head ++ [0] })

/-- The filter list's part of a LINK_RESET naming link n (R132). -/
def State.dropFiltersOf (s : State) (n : Link) : State :=
  let kept := s.filt.entries.filter (fun e => e.author != n)
  if kept.length = s.filt.entries.length then s else s.editFilters kept

end Sys2Proof.Machine
end

