-- ==== Sys2Proof/Machine/HistoryRing.lean ====
section
/-! DEFINITION. The stroke history (chapter 3): the ring, the taking of FIFO entries, gaps, and the frame end. -/

namespace Sys2Proof.Machine

/-- The newest record given its end time, if it has none (R51, R54, R56). -/
def closeNewest (t : Nat) : List HistoryRecord → List HistoryRecord
  | [] => []
  | [r] => [if r.stop.isNone then { r with stop := some t } else r]
  | r :: q :: rest => r :: closeNewest t (q :: rest)

/-- A record entered as the newest, once the one before it has its end time; the oldest is overwritten in a full ring (R51, R53). -/
def History.enter (h : History) (r : HistoryRecord) : History :=
  let ring := closeNewest r.start h.ring
  if ring.length < Config.ringSize then { h with ring := ring ++ [r] }
  else { h with ring := ring.tail ++ [r], wrapped := true }

/-- The horizon: the start time of the oldest record (R53). -/
def History.horizon (h : History) : Option Nat := h.ring.head?.map (fun r => r.start)

/-- A GAP record (R54). -/
def gapRecord (start : Nat) (stop : Option Nat) : HistoryRecord where
  kind := .gap
  seg := none
  element := none
  start := start
  stop := stop
  stroke := none

/-- A GAP opened at a gap start (R54): entered without an end time, with no segment open. -/
def History.openGap (h : History) (g : Nat) : History :=
  { (h.enter (gapRecord g none)) with gapOpen := true, openSeg := none, elementCount := 0 }

/-- An open GAP closed by an entry with a clear lost mark (R55). -/
def History.closeGap (h : History) (stamp : Nat) : History :=
  if h.gapOpen then { h with ring := closeNewest stamp h.ring, gapOpen := false } else h

/-- The record of a vector (R51, R52): a MOVE carries no segment; a stroke of a segment carries its element index. -/
def History.vectorRecord (h : History) (beam : Bool) (p : Stroke) (stamp : Nat) : HistoryRecord where
  kind := if beam then .vector else .move
  seg := if beam then h.openSeg else none
  element :=
    if beam && h.openSeg.isSome then
      some
        { index := if h.elementCount = Config.elementLimit then Config.elementLimit - 1 else h.elementCount,
          saturated := h.elementCount == Config.elementLimit }
    else none
  start := stamp
  stop := none
  stroke := some p

/-- A queued record with a clear lost mark applied to the history (R50, R51, R52). -/
def History.applyRecord (h : History) (record : QueuedRecord) (stamp : Nat) : History :=
  match record with
  | .segmentOpen seg => { h with openSeg := some seg, elementCount := 0 }
  | .segmentClose => { h with openSeg := none, elementCount := 0 }
  | .vector beam p =>
    let t := h.enter (h.vectorRecord beam p stamp)
    if beam && h.openSeg.isSome then { t with elementCount := min (h.elementCount + 1) Config.elementLimit } else t

/-- A FIFO entry taken (R50 to R55): a gap start opens a GAP; a lost-marked entry is folded into it; a clear one closes it and
is then applied. -/
def History.takeEntry (h : History) (e : FifoEntry) : History :=
  let a := match e.gapStart with
    | some g => h.openGap g
    | none => h
  if e.lost then a else (a.closeGap e.stamp).applyRecord e.record e.stamp

/-- The start time of the record that a FIFO entry enters, reported to the correlator (R58); none where it enters none. -/
def FifoEntry.reports (e : FifoEntry) : Option Nat :=
  match e.lost, e.record with
  | false, .vector _ _ => some e.stamp
  | _, _ => e.gapStart

/-- The frame end (R56): a gap start handed with it entered as a GAP, the newest record closed, the history CLOSED. -/
def History.frameEnd (h : History) (endTime : Nat) (gap : Option Nat) : History :=
  let a := match gap with
    | some g => h.enter (gapRecord g (some endTime))
    | none => h
  { a with ring := closeNewest endTime a.ring, openSeg := none, elementCount := 0, gapOpen := false, isOpen := false }

/-- The frame start (R49). -/
def History.frameStart (h : History) : History :=
  { h with ring := [], isOpen := true, openSeg := none, elementCount := 0, gapOpen := false, wrapped := false }

end Sys2Proof.Machine
end

