-- ==== Sys2Proof/Machine/Correlator.lean ====
section
/-! DEFINITION. The hit correlator (chapter 5): distances and the search window, the candidate records, the lookup, keys, weights and
beam points, the hand-off, and the release of waiting hits. -/

namespace Sys2Proof.Machine

/-! ## Distance and the search window (5.3) -/

/-- The distance of a span of duration greater than 0 from a corrected time (R80). -/
def spanDistance (tc : Int) (ts te : Nat) : Int :=
  if tc < (ts : Int) then (ts : Int) - tc
  else if (te : Int) ≤ tc then tc - ((te : Int) - 1)
  else 0

/-- A GAP record meets the search window (R81); a record still without an end time is not read (log 21). -/
def HistoryRecord.gapMeets (r : HistoryRecord) (tc : Int) (w : Nat) : Bool :=
  match r.kind, r.stop with
  | .gap, some te =>
    if r.start < te then decide (spanDistance tc r.start te ≤ (w : Int))
    else decide (((r.start : Int) - tc).natAbs ≤ w)
  | _, _ => false

/-- A candidate record as the correlator reads it from the ring (R82). -/
structure ReadStroke where
  seg : Nat
  element : ElementMark
  start : Nat
  stop : Nat
  stroke : Stroke
  distance : Int
  deriving DecidableEq, Repr

/-- A history record read as a candidate record: a VECTOR of a segment, of duration greater than 0, in the window (R82). -/
def HistoryRecord.asCandidate (tc : Int) (w : Nat) (r : HistoryRecord) : Option ReadStroke :=
  match r.kind, r.seg, r.element, r.stop, r.stroke with
  | .vector, some seg, some element, some te, some p =>
    if r.start < te ∧ spanDistance tc r.start te ≤ (w : Int) then
      some
        { seg := seg, element := element, start := r.start, stop := te, stroke := p,
          distance := spanDistance tc r.start te }
    else none
  | _, _, _, _, _ => none

/-- The ranking by distance, and by start time where the distances are equal (R82). -/
def ReadStroke.nearer (a b : ReadStroke) : Bool :=
  decide (a.distance < b.distance) || (decide (a.distance = b.distance) && decide (a.start ≤ b.start))

/-- A candidate record put at its place in a ranked list. -/
def nearInsert (r : ReadStroke) : List ReadStroke → List ReadStroke
  | [] => [r]
  | q :: rest => if r.nearer q then r :: q :: rest else q :: nearInsert r rest

/-- The candidate records kept of a hit, in ranking order (R82). -/
def keptRecords (tc : Int) (w : Nat) (ring : List HistoryRecord) : List ReadStroke :=
  ((ring.filterMap (HistoryRecord.asCandidate tc w)).foldr nearInsert []).take Config.candidateCap

/-! ## Beam points (5.7) -/

/-- The corrected time brought into a record's span (R89). -/
def clampTime (tc : Int) (ts te : Nat) : Int :=
  if tc < (ts : Int) then (ts : Int) else if (te : Int) < tc then (te : Int) else tc

/-- One coordinate of a beam point (R89): the first endpoint plus the rounded offset. -/
def beamAxis (a b : Nat) (elapsed : Int) (duration : Nat) : Nat :=
  ((a : Int) + roundHalfAway (((b : Int) - (a : Int)) * elapsed) duration).toNat

/-- The beam point on a record at a corrected time (R89). -/
def ReadStroke.beamPoint (r : ReadStroke) (tc : Int) : ScreenPoint :=
  let elapsed := clampTime tc r.start r.stop - (r.start : Int)
  let d := r.stop - r.start
  { x := beamAxis r.stroke.x0.toNat r.stroke.x1.toNat elapsed d,
    y := beamAxis r.stroke.y0.toNat r.stroke.y1.toNat elapsed d }

/-! ## Lookup, keys and filter (5.4, 5.5) -/

/-- A candidate that stands after the lookup, with its key (R83, R85). -/
structure Keyed where
  read : ReadStroke
  entry : Entry
  key : Key
  deriving DecidableEq, Repr

/-- The lookup of a kept record (R83): the cross segment, FREE, MARK and not detectable give no candidate; another is keyed by the
granularity of its segment (R85). -/
def State.lookUp (s : State) (r : ReadStroke) : Option Keyed :=
  if r.seg = Config.crossSegment then none
  else
    match s.entry r.seg with
    | none => none
    | some e =>
      if e.cls = .mark ∨ e.detectable = false then none
      else
        some
          { read := r, entry := e,
            key := { seg := r.seg, element := if e.granularity = .element then some r.element.index else none } }

/-- Of candidates with one key the one ranked first stands (R85). -/
def firstOfKeys : List Keyed → List Keyed
  | [] => []
  | c :: rest => c :: (firstOfKeys rest).filter (fun d => d.key ≠ c.key)

/-- What the correlator presents to the filter list (R86). -/
def Keyed.presented (c : Keyed) : Presented where
  seg := c.key.seg
  cls := c.entry.cls
  tag := c.entry.tag
  owner := c.entry.owner

/-- The priority a candidate carries (R86): 8 for MENU, the filter list's answer for DRAWING. -/
def candidatePriority (cls : SegClass) (p : Fin 8) : Nat := if cls = .menu then 8 else p.val

/-- The filter list's treatment of a candidate (R86), answered with the candidate record but for its weight (R90). -/
def Keyed.filtered (tc : Int) (list : List FilterEntry) (c : Keyed) : Option Candidate :=
  match walk c.presented list (if c.entry.cls = .menu then 0 else c.entry.priority) c.entry.owner with
  | .rejected => none
  | .stands p route =>
    some
      { key := c.key, cls := c.entry.cls, tag := c.entry.tag, priority := candidatePriority c.entry.cls p,
        route := route, weight := 0, point := c.read.beamPoint tc, element := c.read.element.index,
        saturated := c.read.element.saturated }

/-- The weight of a hit spread evenly over its candidates (R87). -/
def spreadWeight (set : List Candidate) : List Candidate :=
  set.map (fun c => { c with weight := Config.hitWeight / set.length })

/-- The candidate set of a hit's kept records (R83 to R87, R90). -/
def State.candidateSet (s : State) (tc : Int) (kept : List ReadStroke) : List Candidate :=
  spreadWeight ((firstOfKeys (kept.filterMap s.lookUp)).filterMap (Keyed.filtered tc s.filt.entries))

/-! ## The hand-off (5.8) -/

/-- A candidate set handed to the resolver, which uses it by its attempt state (R91, R99). -/
def State.handOff (s : State) (set : List Candidate) (gap : Bool) : State :=
  match s.res.attempt with
  | .idle => { s with menu := s.menu.addSet set gap }
  | .gathering => { s with res := s.res.addSet s.corr.frame set gap }
  | .closing => { s with res := s.res.addSet s.corr.frame set gap }
  | .held => s

/-- The arm points of a hit handed to the cross tracker in ranking order (R84). -/
def Cross.armPoints (c : Cross) (tc : Int) (kept : List ReadStroke) : Cross :=
  kept.foldl (fun c r => if r.seg = Config.crossSegment then c.armPoint r.stroke (r.beamPoint tc) else c) c

/-- A hit correlated with the records the ring holds (R82 to R91). -/
def State.readHit (s : State) (tc : Int) : State :=
  let kept := keptRecords tc s.corr.w s.hist.ring
  let set := s.candidateSet tc kept
  let gap := s.hist.ring.any (fun r => r.gapMeets tc s.corr.w)
  let t := { s with cross := s.cross.armPoints tc kept }
  if set.isEmpty then
    if kept.any (fun r => r.seg = Config.crossSegment) then t else t.count .unmatched
  else t.handOff set gap

/-- The read of the ring is short: it has wrapped, and the search window begins before the horizon (R58). -/
def State.shortRead (s : State) (tc : Int) : Bool :=
  s.hist.wrapped
    && (match s.hist.horizon with
        | some h => decide (tc - (s.corr.w : Int) < (h : Int))
        | none => false)

/-- The corrected time of a hit (R77). -/
def State.correctedTime (s : State) (th : Nat) : Int := (th : Int) - (s.corr.l : Int)

/-- A hit taken off the waiting-hits list is correlated (R76 to R91), and its end is counted by an attempt in CLOSING (R102). -/
def State.correlateHit (s : State) (th : Nat) : State :=
  let tc := s.correctedTime th
  if s.shortRead tc then ((s.setFlag .historyShort).count .unmatched).hitDone
  else (s.readHit tc).hitDone

/-! ## Release (5.2) -/

/-- A hit is released when the newest start lies beyond its release point (R77, R78). -/
def State.released (s : State) (th : Nat) : Bool :=
  match s.corr.newestStart with
  | some ns => decide (s.correctedTime th + (s.corr.w : Int) < (ns : Int))
  | none => false

/-- The waiting hits taken from the oldest on while they are released (R78). -/
def releaseWaiting : List Nat → State → State
  | [], s => s
  | th :: rest, s =>
    if s.released th then releaseWaiting rest (State.correlateHit { s with pen := { s.pen with waiting := rest } } th)
    else s

/-- The release test (R78). -/
def State.releaseTest (s : State) : State := releaseWaiting s.pen.waiting s

/-- The waiting hits all taken, oldest first (R79). -/
def correlateWaiting : List Nat → State → State
  | [], s => s
  | th :: rest, s => correlateWaiting rest (State.correlateHit { s with pen := { s.pen with waiting := rest } } th)

/-- The correlator's frame-end work (R79): every waiting hit correlated, then frame done. -/
def State.frameHits (s : State) : State :=
  let t := correlateWaiting s.pen.waiting s
  { t with corr := { t.corr with frameDone := true } }

/-- The correlator's frame-start work (R78, R79, R91; log 12). -/
def Correlator.frameStart (c : Correlator) : Correlator :=
  { c with newestStart := none, frameDone := false, frame := c.frame + 1 }

end Sys2Proof.Machine
end

