-- ==== Sys2Proof/Machine/Pen.lean ====
section
/-! DEFINITION. The pen input (chapter 4): pulses, the flood guard, the waiting-hits list's joining, the tip switch, its frame-start
and frame-end work, and the pen and pick parameter commands. -/

namespace Sys2Proof.Machine

/-! ## Pulses (4.2) -/

/-- A leading edge at a frame time falls in the dead time of the last hit (R62). -/
def Pen.dead (p : Pen) (lead : Nat) : Bool :=
  match p.lastHit with
  | some t => decide (lead < t + p.dd)
  | none => false

/-- A leading edge is admitted: the port IN_FRAME, the enable line high, the pen LISTENING (R61). -/
def State.admits (s : State) (enable : Bool) : Bool := s.port.mode == .inFrame && enable && !s.pen.muted

/-- The pulse that passes at a leading edge (R62). -/
def State.newPulse (s : State) : Pulse where
  lead := s.port.frameTime
  frame := s.corr.frame
  wmin := s.pen.wmin
  stood := 0

/-- The detection line found asserted (R60 to R62): a leading edge only after it was found released. -/
def State.leadingEdge (s : State) (enable : Bool) : State :=
  if s.pen.line then s
  else
    let t := { s with pen := { s.pen with line := true, enable := enable } }
    if !t.admits enable then t.count .discarded
    else if t.pen.dead t.port.frameTime then t.count .dead
    else { t with pen := { t.pen with pulse := some t.newPulse } }

/-- The detection line found released (R60, R63): a pulse still in progress has not qualified and is narrow (log 19). -/
def State.pulseReleased (s : State) : State :=
  if !s.pen.line then s
  else
    let t := { s with pen := { s.pen with line := false, pulse := none } }
    if s.pen.pulse.isSome then t.count .narrow else t

/-- A hit that passed the flood test (R70): it joins the waiting-hits list and the release test is made, or it is discarded at a
full list. Two entries share a hit time only where the frame time counter stands at its limit and Dd is 0 (R62, R63; log 32). -/
def State.joinWaiting (s : State) (th : Nat) : State :=
  if s.pen.waiting.length < Config.waitingSize then
    (State.count { s with pen := { s.pen with waiting := s.pen.waiting ++ [th] } } .hits).releaseTest
  else s.count .discarded

/-- A qualified hit's flood test (R66). -/
def State.floodTest (s : State) (th : Nat) : State :=
  if s.pen.hitCount < s.pen.f then
    State.joinWaiting { s with pen := { s.pen with hitCount := s.pen.hitCount + 1 } } th
  else State.count { s with pen := { s.pen with flooded := true } } .discarded

/-- The pulse in progress qualifies (R63, R65). -/
def State.qualify (s : State) : State :=
  match s.pen.pulse with
  | none => s
  | some p => State.floodTest { s with pen := { s.pen with pulse := none, lastHit := some p.lead } } p.lead

/-- A pulse in progress cut off by the end of its frame (R64). -/
def State.discardPulse (s : State) : State :=
  if s.pen.pulse.isSome then State.count { s with pen := { s.pen with pulse := none } } .discarded else s

/-! ## The flood guard (4.3) -/

/-- The pen enters MUTED (R68, R106). -/
def State.mutePen (s : State) : State :=
  (State.setFlag { s with pen := { s.pen with muted := true } } .penMuted).loseAttempt .penMuted

/-- The flood reckoning at a frame end (R67). -/
def penReckoning (s : State) : State :=
  if s.pen.muted then s
  else if s.pen.flooded then
    let t := State.setFlag { s with pen := { s.pen with floods := s.pen.floods + 1 } } .flood
    if Config.floodsToMute ≤ s.pen.floods + 1 then t.mutePen else t
  else { s with pen := { s.pen with floods := 0 } }

/-- The pen input's frame-start work (R65, R66). -/
def Pen.frameStart (p : Pen) : Pen := { p with lastHit := none, hitCount := 0, flooded := false }

/-- PEN_RESUME (R69). -/
def penResumeWork (s : State) : State × Reply :=
  ({ s with pen := { s.pen with floods := 0, muted := false } }, { mtype := 0x17, code := .ok, values := [] })

/-! ## The tip switch (4.5) -/

/-- The tip switch line shows a level (R71). -/
def State.tipShows (s : State) (level : TipLevel) : State :=
  if level = s.pen.tipRaw then s
  else
    { s with
      pen := { s.pen with tipRaw := level, tipTimer := if level = s.pen.tipDebounced then none else some 0 } }

/-- The debounced state takes the raw level, and its change is handed to the resolver (R71, R98, R101). -/
def State.debounce (s : State) : State :=
  let t := { s with pen := { s.pen with tipDebounced := s.pen.tipRaw, tipTimer := none } }
  match s.pen.tipDebounced, s.pen.tipRaw with
  | .up, .down => t.tipDown
  | .down, .up => t.tipUp
  | .up, .up => t
  | .down, .down => t

/-- The ticks of a debounce time (R71). -/
def debounceTicks (tb : Nat) : Nat := tb * Config.ticksPerMs

/-- A new Tb applied to the time already run (R72). -/
def State.recheckDebounce (s : State) : State :=
  match s.pen.tipTimer with
  | some e => if debounceTicks s.pen.tb ≤ e then s.debounce else s
  | none => s

/-! ## Parameters -/

/-- PEN_PARAMS (R74, R72): the clamped values, a debounce completed by a smaller Tb, then the SETTINGS notice (log 16). -/
def penParamsWork (n : Link) (a : PenParamsArgs) (s : State) : State × Reply :=
  let wmin := clampNat 1 15 a.wmin.toNat
  let dd := clampNat 0 255 a.dd.toNat
  let f := clampNat 1 255 a.f.toNat
  let tb := clampNat 1 31 a.tb.toNat
  let stored := { s with pen := { s.pen with wmin := wmin, dd := dd, f := f, tb := tb } }
  let t := if tb = s.pen.tb then stored else stored.recheckDebounce
  (t.postSettings n .penParams ([byteOf wmin] ++ wordBytes dd ++ [byteOf f, byteOf tb]),
    { mtype := 0x16,
      code := doneCode (outside 1 15 a.wmin.toNat || outside 0 255 a.dd.toNat || outside 1 255 a.f.toNat
        || outside 1 31 a.tb.toNat),
      values := [] })

/-- PICK_PARAMS (R92, R120): the clamped values, the release test it makes, then the SETTINGS notice (log 16). -/
def pickParamsWork (n : Link) (a : PickParamsArgs) (s : State) : State × Reply :=
  let l := clampNat 0 255 a.l.toNat
  let w := clampNat 0 63 a.w.toNat
  let count := clampNat 1 15 a.n.toNat
  let t := clampNat 1 65535 a.t.toNat
  let u :=
    State.releaseTest
      { s with corr := { s.corr with l := l, w := w }, res := { s.res with n := count, t := t, d := a.d.toNat } }
  (u.postSettings n .pickParams (wordBytes l ++ [byteOf w, byteOf count] ++ wordBytes t ++ bytes16 a.d),
    { mtype := 0x18,
      code := doneCode (outside 0 255 a.l.toNat || outside 0 63 a.w.toNat || outside 1 15 a.n.toNat
        || outside 1 65535 a.t.toNat),
      values := [] })

end Sys2Proof.Machine
end

