-- ==== Sys2Proof/Machine/Intake.lean ====
section
/-! DEFINITION. The stroke port's intake (1.1 to 1.4, 1.6): queuing and dropping, the hold line, the history's taking, pending answers, and
the queued records' arrival. The frame's start and end are in FrameLogic. -/

namespace Sys2Proof.Machine

/-! ## The history's taking (R4, R58) -/

/-- The hold line when an entry has left the FIFO (R7). -/
def Port.holdAfterLeave (p : Port) : Bool := if p.fifo.length ≤ p.lw then false else p.hold

/-- The hold line when a record has joined the FIFO (R7). -/
def Port.holdAfterJoin (p : Port) : Bool := if p.h ≤ p.fifo.length then true else p.hold

/-- The hold line against new marks (R7, R19). -/
def Port.holdAfterMarks (p : Port) : Bool :=
  if p.h ≤ p.fifo.length then true else if p.fifo.length ≤ p.lw then false else p.hold

/-- A FIFO entry taken by the history, the start time reported, and the release test made (R51, R58, R78). -/
def State.historyTakes (s : State) (e : FifoEntry) : State :=
  let t := { s with hist := s.hist.takeEntry e }
  match e.reports with
  | none => t
  | some start => State.releaseTest { t with corr := { t.corr with newestStart := some start } }

/-- The oldest FIFO entry handed to the history (R4, R7). -/
def State.handOldest (s : State) : State :=
  match s.port.fifo with
  | [] => s
  | e :: rest =>
    let p := { s.port with fifo := rest }
    State.historyTakes { s with port := { p with hold := p.holdAfterLeave } } e

/-- The FIFO's entries handed to the history, oldest first. -/
def handEntries : List FifoEntry → State → State
  | [], s => s
  | e :: rest, s =>
    let p := { s.port with fifo := rest }
    handEntries rest (State.historyTakes { s with port := { p with hold := p.holdAfterLeave } } e)

/-- The emptying of the FIFO at a boundary record or at absence expiry (R4). -/
def State.flushFifo (s : State) : State := handEntries s.port.fifo s

/-! ## Arrival (R3 to R6) -/

/-- Unread answer words of an earlier record discarded at a record's arrival (R3). -/
def State.dropAnswers (s : State) : State :=
  if s.port.answers.isEmpty then s
  else State.setFlag { s with port := { s.port with answers := [] } } .portProtocol

/-- Answer words made pending (R3). -/
def State.answer (s : State) (words : List Word) : State := { s with port := { s.port with answers := words } }

/-- A queued record dropped at a full FIFO (R5). -/
def State.dropRecord (s : State) (stamp : Nat) : State :=
  let t :=
    { s with
      port :=
        { s.port with
          pendingGap := if s.port.resync then s.port.pendingGap else some stamp
          resync := true } }
  (t.setFlag .intakeDrop).count .intakeDrops

/-- Whether a queued record is a SEGMENT-OPEN. -/
def QueuedRecord.opens : QueuedRecord → Bool
  | .segmentOpen _ => true
  | .segmentClose => false
  | .vector _ _ => false

/-- A queued record that joins the FIFO (R4, R6, R7): a SEGMENT-OPEN ends RESYNC and joins with a clear lost mark. A record takes the
pending gap start also while an earlier entry still holds one of an earlier loss (log 31). -/
def State.joinFifo (s : State) (record : QueuedRecord) (stamp : Nat) : State :=
  let lost := s.port.resync && !record.opens
  let entry : FifoEntry := { record := record, stamp := stamp, lost := lost, gapStart := s.port.pendingGap }
  let p := { s.port with fifo := s.port.fifo ++ [entry], pendingGap := none, resync := lost }
  { s with port := { p with hold := p.holdAfterJoin } }

/-- A queued record that arrives IN_FRAME: it joins the FIFO or is dropped (R4, R5). -/
def State.enqueue (s : State) (record : QueuedRecord) (stamp : Nat) : State :=
  if s.port.fifo.length < Config.fifoSize then s.joinFifo record stamp else s.dropRecord stamp

/-! ## The segment answer (R17, R25, R46) -/

/-- The effective visibility of an entry, given the current page (R25). -/
def Entry.effective (e : Entry) (page : Fin 15) : Bool :=
  match e.cls, e.binding with
  | .menu, some b =>
    e.visible
      && (match b.page with
          | .all => true
          | .page p => p == page)
  | _, _ => e.visible

/-- The answer to a SEGMENT-OPEN taken in a frame (R17). -/
def State.answerFor (s : State) (seg : Nat) : Word :=
  if seg = Config.crossSegment then segmentAnswer s.cross.shown 3 .none
  else
    match s.entry seg with
    | none => segmentAnswer false 0 .none
    | some e =>
      segmentAnswer (e.effective s.currentPage) e.intensity
        (if s.dir.shown.contains seg then s.dir.shownStyle.highlight else e.highlight)

/-! ## The queued records (R11 to R13) -/

/-- A SEGMENT-OPEN arrives (R11, R13, R17); PORT_PROTOCOL, where it is set, comes before INTAKE_DROP (log 33). -/
def State.segmentOpens (s : State) (seg : Nat) (stamp : Nat) : State :=
  let a := s.dropAnswers
  if a.port.mode = .inFrame then
    let b := if a.port.openSeg.isSome then a.setFlag .portProtocol else a
    let c := State.enqueue { b with port := { b.port with openSeg := some seg } } (.segmentOpen seg) stamp
    c.answer [c.answerFor seg]
  else (a.setFlag .portProtocol).answer [segmentAnswer false 0 .none]

/-- A SEGMENT-CLOSE arrives (R11, R13); PORT_PROTOCOL, where it is set, comes before INTAKE_DROP (log 33). -/
def State.segmentCloses (s : State) (stamp : Nat) : State :=
  let a := s.dropAnswers
  if a.port.mode = .inFrame ∧ a.port.openSeg.isSome then
    State.enqueue { a with port := { a.port with openSeg := none } } .segmentClose stamp
  else a.setFlag .portProtocol

/-- A VECTOR arrives (R12, R13); PORT_PROTOCOL, where it is set, comes before INTAKE_DROP (log 33). -/
def State.vectorArrives (s : State) (beam : Bool) (p : Stroke) (stamp : Nat) : State :=
  let a := s.dropAnswers
  if a.port.mode = .inFrame then (a.enqueue (.vector beam p) stamp).count .vectors
  else a.setFlag .portProtocol

/-! ## Answer words read (R3) -/

/-- The generator reads one answer word (R3): the oldest pending one, or zeros with PORT_PROTOCOL set (log 13). -/
def State.readAnswer (s : State) : State :=
  match s.port.answers with
  | w :: rest => { s with port := { s.port with answers := rest }, answerOut := w }
  | [] => State.setFlag { s with answerOut := 0 } .portProtocol

/-! ## The assembler (R2) -/

/-- A marked word is written while a record is incomplete: the incomplete record is abandoned (R2). -/
def State.abandonRecord (s : State) : State :=
  if s.port.assembler.isSome then State.setFlag { s with port := { s.port with assembler := none } } .portProtocol
  else s

end Sys2Proof.Machine
end

