-- ==== Sys2Proof/Machine/FrameLogic.lean ====
section
/-! DEFINITION. The frame logic of the stroke port (1.4 to 1.7): frame end, frame start, the boundary records, absence expiry, single
words, and PORT_PARAMS. The orders the rules leave open are operands (log 5). -/

namespace Sys2Proof.Machine

/-! ## Frame end (R9, R10, R15, R56, R79) -/

/-- One block's work on the report that the frame's hits are complete (R79). -/
def runFrameEndTask : FrameEndTask → State → State
  | .penReckoning => Sys2Proof.Machine.penReckoning
  | .crossUpdate => Sys2Proof.Machine.crossUpdate
  | .resolverCount => Sys2Proof.Machine.resolverCount
  | .menuDwell => Sys2Proof.Machine.menuDwell

/-- The four tasks in an order (log 5). -/
def endTasks (o : FrameEndOrder) : List FrameEndTask :=
  ((([FrameEndTask.resolverCount].insertIdx o.cross.val .crossUpdate).insertIdx o.pen.val .penReckoning).insertIdx o.menu.val
    .menuDwell)

/-- The order in which R79 names the four tasks: the default where a frame ends in passing (log 5). -/
def defaultEndOrder : FrameEndOrder := { cross := 0, pen := 0, menu := 3 }

/-- The history's frame end, with the pending gap start handed to it (R6, R56), and the port's part: the open segment closes and
RESYNC ends. -/
def State.closeHistory (s : State) (endTime : Nat) : State :=
  { s with
    hist := s.hist.frameEnd endTime s.port.pendingGap
    corr :=
      { s.corr with
        newestStart := (match s.port.pendingGap with | some g => some g | none => s.corr.newestStart) }
    port := { s.port with pendingGap := none, resync := false, openSeg := none } }

/-- The end of the running frame once the FIFO is empty (R9, R10, R15): the pulse in progress, the history, the hits, the report's four
tasks. -/
def State.frameEnds (s : State) (endTime : Nat) (order : FrameEndOrder) : State :=
  let a := (s.discardPulse.closeHistory endTime).frameHits
  let b := (endTasks order).foldl (fun t task => runFrameEndTask task t) a
  { b with res := { b.res with fresh := false } }

/-! ## Frame start (R8) -/

/-- The directory's frame-start work on its own state and the view (R37, R46). -/
def State.directoryStart (s : State) : State := s.applyStaged.echoStep

/-- The directory's result handed on: the withdrawn set, then the view change if a VIEW_SET was applied (R39, R104). -/
def State.handStart (s : State) (viewChanged : Bool) : State :=
  let t := s.handWithdrawn true
  if viewChanged then t.loseAttempt .viewChanged else t

/-- The frame-start work of the directory and the menu controller in an order (R37, R136; log 5). VIEW_SET is never skipped
(R38), so a listed one is applied. -/
def State.startWork (s : State) (order : FrameStartOrder) : State :=
  let viewChanged := s.dir.changes.any (fun c => c.op.isView)
  match order with
  | .menuFirst => s.menuFrameStart.directoryStart.handStart viewChanged
  | .menuBetween => s.directoryStart.menuFrameStart.handStart viewChanged
  | .menuLast => (s.directoryStart.handStart viewChanged).menuFrameStart

/-- The port, history, pen input and correlator at a frame start (R8, R14, R49, R65, R66, R78, R79). -/
def State.beginFrame (s : State) (seq : Byte) : State :=
  State.count
    { s with
      port :=
        { s.port with
          mode := .inFrame, resync := false, openSeg := none, lastSeq := seq, frameTime := 0, absence := 0 }
      hist := s.hist.frameStart
      pen := s.pen.frameStart
      corr := s.corr.frameStart }
    .frames

/-- A frame starts (R8), and its answer is formed once the frame-start work is done (R18). -/
def State.frameStarts (s : State) (seq : Byte) (order : FrameStartOrder) : State :=
  let t := (s.beginFrame seq).startWork order
  t.answer (frameAnswer t.cross.shown seq t.cross.x t.cross.y)

/-! ## Boundary records (R8 to R10, R13) -/

/-- The emptying of the FIFO, and then the discarding of unread answers, with which a boundary record's arrival begins (R3, R4;
log 24). -/
def State.boundary (s : State) : State := s.flushFifo.dropAnswers

/-- A running frame truncated by a FRAME-OPEN (R9). -/
def State.truncate (s : State) (order : FrameEndOrder) : State :=
  if s.port.mode = .inFrame then (s.setFlag .portProtocol).frameEnds s.port.frameTime order else s

/-- A FRAME-OPEN arrives (R8, R9). -/
def State.frameOpens (s : State) (seq : Byte) (endOrder : FrameEndOrder) (startOrder : FrameStartOrder) : State :=
  (s.boundary.truncate endOrder).frameStarts seq startOrder

/-- The port state after a frame or its absence. -/
def State.enterMode (s : State) (mode : PortMode) : State := { s with port := { s.port with mode := mode } }

/-- A FRAME-CLOSE arrives (R10, R13). -/
def State.frameCloses (s : State) (order : FrameEndOrder) : State :=
  let a := s.boundary
  if a.port.mode = .inFrame then
    let b := if a.port.openSeg.isSome then a.setFlag .portProtocol else a
    (b.frameEnds b.port.frameTime order).enterMode .between
  else a.setFlag .portProtocol

/-! ## Absence expiry (R15) -/

/-- One block's work at the entry into DARK. -/
inductive DarkTask where
  | directory
  | resolver
  | menu
  deriving DecidableEq, Repr

/-- A task carried out: the directory's staged work with its withdrawn set (R40), the resolver's LOST outcome (R105), the
menu controller's copy and dwell state (R136, R144). -/
def runDarkTask : DarkTask → State → State
  | .directory => fun s => s.applyStaged.handWithdrawn false
  | .resolver => fun s => s.loseAttempt .noFrames
  | .menu => State.menuDark

/-- The three tasks in an order (log 5). -/
def darkTasks (o : DarkOrder) : List DarkTask :=
  ([DarkTask.directory].insertIdx o.resolver.val .resolver).insertIdx o.menu.val .menu

/-- The default order where the timer expires in passing (log 5): directory, resolver, menu. -/
def defaultDarkOrder : DarkOrder := { resolver := 1, menu := 2 }

/-- The entry into DARK (R15): the timer stops at zero, the DARK flag is set, the other blocks act. -/
def State.enterDark (s : State) (order : DarkOrder) : State :=
  let a := State.setFlag { s with port := { s.port with mode := .dark, absence := 0 } } .dark
  (darkTasks order).foldl (fun t task => runDarkTask task t) a

/-- The absence timer expires (R15). -/
def State.absenceExpires (s : State) (endOrder : FrameEndOrder) (darkOrder : DarkOrder) : State :=
  match s.port.mode with
  | .dark => s
  | .between => s.enterDark darkOrder
  | .inFrame =>
    let a := s.flushFifo
    (a.frameEnds a.port.frameTime endOrder).enterDark darkOrder

/-! ## Single words (R2, R188) -/

/-- A marked word is written: it begins a record, which arrives at once if it is its only word (R188; the default orders where a
boundary record arrives, log 8). -/
def State.markedWord (s : State) (w : Word) : State :=
  let a := s.abandonRecord
  match wordKind w with
  | 1 => a.frameOpens (w.extractLsb' 0 8) defaultEndOrder .menuLast
  | 2 => a.segmentOpens (w.extractLsb' 0 10).toNat a.port.frameTime
  | 3 => a.segmentCloses a.port.frameTime
  | 4 =>
    { a with port := { a.port with assembler := some { stamp := a.port.frameTime, beam := w.getLsbD 0, words := [] } } }
  | 5 => a.frameCloses defaultEndOrder
  | _ => a.setFlag .portProtocol

/-- A continuation word is written, or an unmarked word where a first word is expected (R2). -/
def State.unmarkedWord (s : State) (w : Word) : State :=
  match s.port.assembler with
  | none => s.setFlag .portProtocol
  | some p =>
    let v : BitVec 12 := w.extractLsb' 0 12
    match p.words with
    | [x0, y0, x1] =>
      State.vectorArrives { s with port := { s.port with assembler := none } } p.beam
        { x0 := x0, y0 := y0, x1 := x1, y1 := v } p.stamp
    | ws => { s with port := { s.port with assembler := some { p with words := ws ++ [v] } } }

/-- One word written to the stroke port (R2, R188; log 8). -/
def State.wordWritten (s : State) (w : Word) : State :=
  if wordMarked w then s.markedWord w else s.unmarkedWord w

/-! ## Port parameters (R19) -/

/-- PORT_PARAMS (R19, R7, R14): the clamped values, the hold line re-evaluated, the absence timer restarted. -/
def portParamsWork (n : Link) (a : PortParamsArgs) (s : State) : State × Reply :=
  let h := clampNat 2 16 a.h.toNat
  let lw := if h ≤ a.lw.toNat then h - 1 else a.lw.toNat
  let ta := clampNat 10 1000 a.ta.toNat
  let p := { s.port with h := h, lw := lw, ta := ta, absence := 0 }
  let t := { s with port := { p with hold := p.holdAfterMarks } }
  (t.postSettings n .portParams ([byteOf h, byteOf lw] ++ wordBytes ta),
    { mtype := 0x15,
      code := doneCode (outside 2 16 a.h.toNat || decide (h ≤ a.lw.toNat) || outside 10 1000 a.ta.toNat), values := [] })

end Sys2Proof.Machine
end

