-- ==== Sys2Proof/Machine/LinkReceive.lean ====
section
/-! DEFINITION. The link receiver (R169, R170): what one character does to it, and a failed frame (R171). -/

namespace Sys2Proof.Machine

/-- What a good character does to a receiver (R170). -/
inductive ReceiverStep where
  | goesOn (rx : Receiver)
  | fails (reason : FailReason)
  | completes (f : Frame)
  deriving DecidableEq, Repr

/-- The frame that HEAD and a payload make (12.2). -/
def frameOf (head : Byte) (payload : List Byte) : Frame :=
  { dir := head.getLsbD 6, mtype := head.extractLsb' 0 6, payload := payload }

/-- One byte taken by a receiver (R170): hunting for MARK, then HEAD, LEN, payload and CHECK. -/
def Receiver.take (rx : Receiver) (b : Byte) : ReceiverStep :=
  match rx with
  | .hunting => if b = 0xC3 then .goesOn (.receiving [] 0) else .goesOn .hunting
  | .receiving [] _ =>
    if headPasses b then .goesOn (.receiving [b] 0)
    else if b = 0xC3 then .goesOn (.receiving [] 0)
    else .fails .sync
  | .receiving [head] _ =>
    if Config.payloadLimit < b.toNat then .fails .length else .goesOn (.receiving [head, b] 0)
  | .receiving (head :: len :: payload) _ =>
    if payload.length < len.toNat then .goesOn (.receiving (head :: len :: (payload ++ [b])) 0)
    else if b = crc8 (head :: len :: payload) then .completes (frameOf head payload)
    else .fails .check

/-- The REJECT reply of a failure (R171, 12.3). -/
def rejectReply (reason : FailReason) : Reply := { mtype := 0x00, code := .reject, values := [byteOf (failCode reason)] }

/-- A link's unit with its receiver set. -/
def State.setReceiver (s : State) (n : Link) (rx : Receiver) : State := s.setUnit n { s.unit n with rx := rx }

/-- A reply placed in a link's reply slot, after which an idle transmitter begins it (R173, R174). -/
def State.placeReply (s : State) (n : Link) (r : Reply) : State :=
  s.setUnit n ({ s.unit n with slot := some r } : LinkUnit).kick

/-- A frame being received on a link fails (R170, R171; log 15): the receiver hunts, the flag is set, and a REJECT is placed in an
empty reply slot. -/
def State.failFrame (s : State) (n : Link) (reason : FailReason) : State :=
  let t := (s.setReceiver n .hunting).setFlag (.frameError n)
  if (t.unit n).slot.isNone then t.placeReply n (rejectReply reason) else t

end Sys2Proof.Machine
end

