-- ==== Sys2Proof/Machine/Time.lean ====
section
/-! DEFINITION. The passing of time in beam ticks (0.5): the counters and timers that run, and the events that fall due on the way
(logs 1, 2 and 3). -/

namespace Sys2Proof.Machine

/-- A receiver's gap timer after some ticks (R170). -/
def Receiver.age (d : Nat) : Receiver → Receiver
  | .hunting => .hunting
  | .receiving bytes gap => .receiving bytes (gap + d)

/-- The port's counters after some ticks (R1, R14): both stand while the port is DARK, and the frame time stays at its limit. -/
def Port.age (d : Nat) (p : Port) : Port :=
  match p.mode with
  | .dark => p
  | .inFrame => { p with frameTime := min (p.frameTime + d) Config.frameTimeLimit, absence := p.absence + d }
  | .between => { p with frameTime := min (p.frameTime + d) Config.frameTimeLimit, absence := p.absence + d }

/-- The pen input's pulse and debounce timer after some ticks (R63, R71). -/
def Pen.age (d : Nat) (p : Pen) : Pen :=
  { p with
    pulse := p.pulse.map (fun q => { q with stood := q.stood + d })
    tipTimer := p.tipTimer.map (fun e => e + d) }

/-- Some ticks pass in which no event falls due; the history may then take an entry again (R4, log 14). -/
def State.elapse (s : State) (d : Nat) : State :=
  { s with
    port := s.port.age d
    pen := s.pen.age d
    hist := { s.hist with took := s.hist.took && d == 0 }
    links :=
      { s.links with
        u0 := { s.links.u0 with rx := s.links.u0.rx.age d }
        u1 := { s.links.u1 with rx := s.links.u1.rx.age d } } }

/-- The events that time alone brings about. -/
inductive TimedEvent where
  | qualify
  | debounce
  | gap (n : Link)
  | absence
  deriving DecidableEq, Repr

/-- The ticks until a timed event falls due; none while its timer is stopped (R63, R71, R170, R14). A frame whose gap has run to
50,000 ticks fails once a further tick passes without a byte. -/
def State.due (s : State) : TimedEvent → Option Nat
  | .qualify => s.pen.pulse.map (fun p => p.wmin - p.stood)
  | .debounce => s.pen.tipTimer.map (fun e => debounceTicks s.pen.tb - e)
  | .gap n =>
    match (s.unit n).rx with
    | .hunting => none
    | .receiving _ g => some (Config.gapLimit - g)
  | .absence =>
    match s.port.mode with
    | .dark => none
    | .inFrame => some (s.port.ta * Config.ticksPerMs - s.port.absence)
    | .between => some (s.port.ta * Config.ticksPerMs - s.port.absence)

/-- A timed event takes place, with the default orders (log 5). -/
def State.fire (s : State) : TimedEvent → State
  | .qualify => s.qualify
  | .debounce => s.debounce
  | .gap n => s.failFrame n .short
  | .absence => s.absenceExpires defaultEndOrder defaultDarkOrder

/-- The timed events, in the order in which those of one tick are taken when they fall due in passing (log 2). -/
def timedEvents : List TimedEvent := [.qualify, .debounce, .gap .link0, .gap .link1, .absence]

/-- The event of the list that falls due first. -/
def State.nextOf (s : State) : List TimedEvent → Option (TimedEvent × Nat)
  | [] => none
  | e :: rest =>
    match s.due e, s.nextOf rest with
    | none, later => later
    | some n, none => some (e, n)
    | some n, some (f, m) => if m < n then some (f, m) else some (e, n)

/-- Time passes: an event due before the end takes place in its moment. Each kind of event can fall due once, so no more than
five of them are met. -/
def State.advanceBy : Nat → Nat → State → State
  | 0, d, s => s.elapse d
  | fuel + 1, d, s =>
    match s.nextOf timedEvents with
    | none => s.elapse d
    | some (e, n) => if n < d then State.advanceBy fuel (d - n) ((s.elapse n).fire e) else s.elapse d

/-- `d` beam ticks pass (logs 1 and 2). -/
def State.advance (s : State) (d : Nat) : State := if d = 0 then s else State.advanceBy 5 d s

/-- Time runs on to the moment a timed event falls due; the event then stands at its moment if nothing on the way ended it
(log 3). The answer says whether it does. -/
def State.runTo (s : State) (e : TimedEvent) : State × Bool :=
  match s.due e with
  | none => (s, false)
  | some n => (s.advance n, decide ((s.advance n).due e = some 0))

end Sys2Proof.Machine
end

