-- ==== Sys2Proof/Machine/LinkUnits.lean ====
section
/-! DEFINITION. The link units (chapter 11): the commands of the flags, statistics and links, the resets, the taking of commands, the
inbound buffer and the transmitter's end. -/

namespace Sys2Proof.Machine

/-! ## Masks, flags, statistics, status (11.5 to 11.8) -/

/-- NOTICE_MASK (R176). -/
def noticeMaskWork (n : Link) (classes : Byte) (s : State) : State × Reply :=
  if classes.getLsbD 7 then (s, { mtype := 0x1C, code := .range, values := [] })
  else
    let mask : BitVec 7 := classes.extractLsb' 0 7
    let x : Notice := .condition s.flags
    let t := s.setUnit n { s.unit n with mask := mask }
    let told := enables mask x && !enables (s.unit n).mask x && s.flags != 0
    (if told then t.post (.single n) x else t, { mtype := 0x1C, code := .ok, values := [mask.zeroExtend 8] })

/-- The condition flags after a FLAGS_CLEAR (R179): the named ones cleared, DARK and PEN_MUTED set again while their states last. -/
def State.clearedFlags (s : State) (named : BitVec 11) : BitVec 11 :=
  let a := s.flags &&& ~~~named
  let b := if s.port.mode = .dark then withFlag a .dark else a
  if s.pen.muted then withFlag b .penMuted else b

/-- FLAGS_CLEAR (R179). -/
def flagsClearWork (flags : Word) (s : State) : State × Reply :=
  if flags.extractLsb' 11 5 ≠ 0 then (s, { mtype := 0x1D, code := .range, values := [] })
  else
    let t := { s with flags := s.clearedFlags (flags.extractLsb' 0 11) }
    (t, { mtype := 0x1D, code := .ok, values := flagBytes t.flags })

/-- STATS_READ (R181). -/
def statsReadWork (clear : Byte) (s : State) : State × Reply :=
  (if yes clear then { s with stats := Stats.zero } else s,
    { mtype := 0x1E, code := .ok, values := s.stats.values.flatMap wordBytes })

/-- STATUS_READ (R182, R192). -/
def statusReadWork (s : State) : State × Reply :=
  (s, { mtype := 0x1F, code := .ok,
        values :=
          [byteOf (portStateCode s.port.mode s.port.resync), byteOf s.res.attempt.code, byteOf s.res.mode.code,
            byteOf s.res.modeOwner.code, byteOf s.cross.state.code, boolByte s.pen.muted, byteOf (tipCode s.pen.tipRaw),
            byteOf (tipCode s.pen.tipDebounced)]
          ++ flagBytes s.flags ++ [byteOf s.dir.changes.length, byteOf s.res.tally.length] })

/-- IDENT (R183). -/
def identWork (s : State) : State × Reply :=
  (s, { mtype := 0x20, code := .ok, values := [0x54] ++ wordBytes 418 ++ [0x42, byteOf (rateCode s.links.rate)] })

/-! ## Resets (11.9) -/

/-- A link's queue flushed, its loss mark cleared, its mask reset (R184, steps 1 and 2). -/
def LinkUnit.flushed (u : LinkUnit) : LinkUnit := { u with queue := [], lossMark := false, mask := resetMask }

/-- What a LINK_RESET naming a link does (R184). -/
def State.resetLink (s : State) (n : Link) : State :=
  (((s.setUnit n (s.unit n).flushed).resetLinkDirectory n).dropFiltersOf n).revertMode n

/-- LINK_RESET (R184). -/
def linkResetWork (link : Byte) (s : State) : State × Reply :=
  match linkOf link with
  | none => (s, { mtype := 0x21, code := .range, values := [] })
  | some n => (s.resetLink n, { mtype := 0x21, code := .ok, values := [] })

/-- The pen input after a reset that samples its lines (R60, R73, R75). -/
def penAfterReset (tip : TipLevel) (line enable : Bool) : Pen :=
  { State.reset.pen with line := line, enable := enable, tipRaw := tip, tipDebounced := tip }

/-- The whole part after a reset (R20, R47, R59, R75, R93, R121, R133, R146, R159, R168, R177, R185, R186; log 25): every block's reset
values, the pen lines as sampled, the line rate given, RESTARTED on both links. The commands that wait outside the part stay. -/
def State.afterReset (s : State) (cause : RestartCause) (rate : LineRate) (pen : Pen) : State :=
  { State.reset with
    pen := pen
    links := { rate := rate, u0 := LinkUnit.afterReset cause, u1 := LinkUnit.afterReset cause }
    pending := s.pending }

/-- A reset that keeps the line rate (R169, R185, R186), the pen lines as they stand. -/
def State.resetKept (s : State) (cause : RestartCause) : State :=
  s.afterReset cause s.links.rate (penAfterReset s.pen.tipRaw s.pen.line s.pen.enable)

/-! ## Carrying out a command (R173, R174) -/

/-- A command's work with its reply; PART_RESET has none (R173, R185). -/
def commandWork (n : Link) (c : LinkCmd) (s : State) : State × Option Reply :=
  let replied (r : State × Reply) : State × Option Reply := (r.1, some r.2)
  match c with
  | .segDefine a => replied (segDefineWork n a s)
  | .segSet a => replied (segSetWork n a s)
  | .segShare seg => replied (segShareWork n seg s)
  | .segRelease seg => replied (segReleaseWork n seg s)
  | .segMenu a => replied (segMenuWork n a s)
  | .segQuery seg => replied (segQueryWork seg s)
  | .viewSet a => replied (viewSetWork n a s)
  | .echoSet e style => replied (echoSetWork n e style s)
  | .filterInsert a => replied (filterInsertWork n a s)
  | .filterDelete index => replied (filterDeleteWork n index s)
  | .filterEnable index enabled => replied (filterEnableWork n index enabled s)
  | .filterRead index => replied (filterReadWork index s)
  | .pagePush page => replied (pagePushWork page s)
  | .pageBack => replied (pageBackWork s)
  | .pageHome => replied (pageHomeWork s)
  | .dwellSet dw => replied (dwellSetWork n dw s)
  | .crossPlace x y => replied (crossPlaceWork x y s)
  | .crossPark => replied (crossParkWork s)
  | .crossParams slew k => replied (crossParamsWork n slew k s)
  | .crossRead => replied (crossReadWork s)
  | .portParams a => replied (portParamsWork n a s)
  | .penParams a => replied (penParamsWork n a s)
  | .penResume => replied (penResumeWork s)
  | .pickParams a => replied (pickParamsWork n a s)
  | .modeSet mode => replied (modeSetWork n mode s)
  | .pickCancel => replied (pickCancelWork s)
  | .snapSet a => replied (snapSetWork n a s)
  | .noticeMask classes => replied (noticeMaskWork n classes s)
  | .flagsClear flags => replied (flagsClearWork flags s)
  | .statsRead clear => replied (statsReadWork clear s)
  | .statusRead => replied (statusReadWork s)
  | .ident => replied (identWork s)
  | .linkReset link => replied (linkResetWork link s)
  | .partReset => (s.resetKept (.partReset n), none)

/-- A link's mark that a command of it is being carried out (R174, log 27). -/
def State.setBusy (s : State) (n : Link) (b : Bool) : State := s.setUnit n { s.unit n with busy := b }

/-- A command carried out (R173, R174): its link's transmitter begins no frame meanwhile, and its reply is placed at the end. -/
def State.carryOut (s : State) (n : Link) (c : LinkCmd) : State :=
  match commandWork n c (s.setBusy n true) with
  | (t, some r) => (t.setBusy n false).placeReply n r
  | (t, none) => t

/-- A frame taken (R173): UNKNOWN, RANGE for a wrong length, or the command carried out. -/
def State.takeFrame (s : State) (n : Link) (f : Frame) : State :=
  match decodeFrame f with
  | .unknown mtype => s.placeReply n { mtype := mtype, code := .unknown, values := [] }
  | .badLength mtype => s.placeReply n { mtype := mtype, code := .range, values := [] }
  | .command c => s.carryOut n c

/-- The oldest frame of the inbound buffer taken, if the reply slot is empty (R172, R173). -/
def State.takeNext (s : State) (n : Link) : State :=
  match (s.unit n).slot, (s.unit n).inbound with
  | none, f :: rest => (s.setUnit n { s.unit n with inbound := rest }).takeFrame n f
  | _, _ => s

/-- A frame completes (R170, R172): the receiver hunts, and the frame joins the inbound buffer or is dropped at a full one. -/
def State.frameCompletes (s : State) (n : Link) (f : Frame) : State :=
  let t := s.setReceiver n .hunting
  if (t.unit n).inbound.length < Config.inboundSize then
    (t.setUnit n { t.unit n with inbound := (t.unit n).inbound ++ [f] }).takeNext n
  else t.setFlag (.frameError n)

/-- A frame with a command completes on a link (log 6): carried out at once where the reply slot and the inbound buffer are
empty (R173), and otherwise treated as any complete frame. -/
def State.linkCommand (s : State) (n : Link) (c : LinkCmd) : State :=
  if (s.unit n).slot.isNone && (s.unit n).inbound.isEmpty then (s.setReceiver n .hunting).carryOut n c
  else s.frameCompletes n (encodeCommand c)

/-! ## The line -/

/-- A receiver takes one character (R169, R170): one with a low stop bit is discarded. -/
def State.characterTaken (s : State) (n : Link) (b : Byte) (stopOk : Bool) : State :=
  if !stopOk then s
  else
    match (s.unit n).rx.take b with
    | .goesOn rx => s.setReceiver n rx
    | .fails reason => s.failFrame n reason
    | .completes f => s.frameCompletes n f

/-- A transmitter finishes its frame (R174) and begins the next; where its reply slot empties, a failure named to come first is
taken before the next command (R171, R173; log 7). -/
def State.transmissionEnds (s : State) (n : Link) (failFirst : Option FailReason) : State :=
  if (s.unit n).tx.isNone then s
  else
    let a := s.setUnit n ({ s.unit n with tx := none } : LinkUnit).kick
    let b := match failFirst with
      | some reason => a.failFrame n reason
      | none => a
    b.takeNext n

end Sys2Proof.Machine
end

