-- ==== Sys2Proof/Machine/ExecLink.lean ====
section
/-! DEFINITION. The meanings of the commands of the links: time passes (log 2), then a frame with the command completes on the link
(log 6), or the link event takes place, or the part is reset. -/

namespace Sys2Proof.Machine

/-- LINK_FRAME_COMPLETE (R172): a payload longer than a frame can carry fails with LENGTH instead (R170; log 23). -/
def execLinkFrameComplete (dt : Nat) (n : Link) (dir : Bool) (mtype : BitVec 6) (payload : List Byte) (s : State) :
    Host.Outcome State Fault Refusal :=
  .next
    (if payload.length ≤ Config.payloadLimit then
      (s.advance dt).frameCompletes n { dir := dir, mtype := mtype, payload := payload }
    else (s.advance dt).failFrame n .length)

/-- FRAME_FAILED (R171). -/
def execFrameFailed (dt : Nat) (n : Link) (reason : FailReason) (s : State) : Host.Outcome State Fault Refusal :=
  .next ((s.advance dt).failFrame n reason)

/-- The ticks until more than 5 ms have passed without a byte on a link that is receiving (R170). -/
def ticksToShort (n : Link) (s : State) : Nat :=
  match (s.unit n).rx with
  | .hunting => 0
  | .receiving _ g => Config.gapLimit + 1 - g

/-- GAP_TIMER_EXPIRY (R170; log 3): the frame fails on the way. -/
def execGapTimerExpiry (n : Link) (s : State) : Host.Outcome State Fault Refusal := .next (s.advance (ticksToShort n s))

/-- TRANSMISSION_END (R174). -/
def execTransmissionEnd (dt : Nat) (n : Link) (failFirst : Option FailReason) (s : State) :
    Host.Outcome State Fault Refusal :=
  .next ((s.advance dt).transmissionEnds n failFirst)

/-- UNKNOWN_TYPE (R173): a frame with no payload and a type that names no command. -/
def execUnknownType (dt : Nat) (n : Link) (dir : Bool) (mtype : BitVec 6) (s : State) :
    Host.Outcome State Fault Refusal :=
  .next ((s.advance dt).frameCompletes n { dir := dir, mtype := mtype, payload := [] })

/-- SEG_DEFINE (R29). -/
def execSegDefine (dt : Nat) (n : Link) (a : SegDefineArgs) (s : State) : Host.Outcome State Fault Refusal :=
  .next ((s.advance dt).linkCommand n (.segDefine a))

/-- SEG_SET (R30). -/
def execSegSet (dt : Nat) (n : Link) (a : SegSetArgs) (s : State) : Host.Outcome State Fault Refusal :=
  .next ((s.advance dt).linkCommand n (.segSet a))

/-- SEG_SHARE (R31). -/
def execSegShare (dt : Nat) (n : Link) (seg : Word) (s : State) : Host.Outcome State Fault Refusal :=
  .next ((s.advance dt).linkCommand n (.segShare seg))

/-- SEG_RELEASE (R32). -/
def execSegRelease (dt : Nat) (n : Link) (seg : Word) (s : State) : Host.Outcome State Fault Refusal :=
  .next ((s.advance dt).linkCommand n (.segRelease seg))

/-- SEG_MENU (R33). -/
def execSegMenu (dt : Nat) (n : Link) (a : SegMenuArgs) (s : State) : Host.Outcome State Fault Refusal :=
  .next ((s.advance dt).linkCommand n (.segMenu a))

/-- SEG_QUERY (R35). -/
def execSegQuery (dt : Nat) (n : Link) (seg : Word) (s : State) : Host.Outcome State Fault Refusal :=
  .next ((s.advance dt).linkCommand n (.segQuery seg))

/-- VIEW_SET (R34, R167). -/
def execViewSet (dt : Nat) (n : Link) (a : ViewSetArgs) (s : State) : Host.Outcome State Fault Refusal :=
  .next ((s.advance dt).linkCommand n (.viewSet a))

/-- ECHO_SET (R45). -/
def execEchoSet (dt : Nat) (n : Link) (e : Word) (style : Byte) (s : State) : Host.Outcome State Fault Refusal :=
  .next ((s.advance dt).linkCommand n (.echoSet e style))

/-- FILTER_INSERT (R128). -/
def execFilterInsert (dt : Nat) (n : Link) (a : FilterInsertArgs) (s : State) : Host.Outcome State Fault Refusal :=
  .next ((s.advance dt).linkCommand n (.filterInsert a))

/-- FILTER_DELETE (R129). -/
def execFilterDelete (dt : Nat) (n : Link) (index : Byte) (s : State) : Host.Outcome State Fault Refusal :=
  .next ((s.advance dt).linkCommand n (.filterDelete index))

/-- FILTER_ENABLE (R130). -/
def execFilterEnable (dt : Nat) (n : Link) (index : Byte) (enabled : Byte) (s : State) :
    Host.Outcome State Fault Refusal :=
  .next ((s.advance dt).linkCommand n (.filterEnable index enabled))

/-- FILTER_READ (R131). -/
def execFilterRead (dt : Nat) (n : Link) (index : Byte) (s : State) : Host.Outcome State Fault Refusal :=
  .next ((s.advance dt).linkCommand n (.filterRead index))

/-- PAGE_PUSH (R137). -/
def execPagePush (dt : Nat) (n : Link) (page : Byte) (s : State) : Host.Outcome State Fault Refusal :=
  .next ((s.advance dt).linkCommand n (.pagePush page))

/-- PAGE_BACK (R137). -/
def execPageBack (dt : Nat) (n : Link) (s : State) : Host.Outcome State Fault Refusal :=
  .next ((s.advance dt).linkCommand n .pageBack)

/-- PAGE_HOME (R137). -/
def execPageHome (dt : Nat) (n : Link) (s : State) : Host.Outcome State Fault Refusal :=
  .next ((s.advance dt).linkCommand n .pageHome)

/-- DWELL_SET (R145). -/
def execDwellSet (dt : Nat) (n : Link) (dw : Byte) (s : State) : Host.Outcome State Fault Refusal :=
  .next ((s.advance dt).linkCommand n (.dwellSet dw))

/-- CROSS_PLACE (R153). -/
def execCrossPlace (dt : Nat) (n : Link) (x : Word) (y : Word) (s : State) : Host.Outcome State Fault Refusal :=
  .next ((s.advance dt).linkCommand n (.crossPlace x y))

/-- CROSS_PARK (R154). -/
def execCrossPark (dt : Nat) (n : Link) (s : State) : Host.Outcome State Fault Refusal :=
  .next ((s.advance dt).linkCommand n .crossPark)

/-- CROSS_PARAMS (R155). -/
def execCrossParams (dt : Nat) (n : Link) (slew : Word) (k : Byte) (s : State) : Host.Outcome State Fault Refusal :=
  .next ((s.advance dt).linkCommand n (.crossParams slew k))

/-- CROSS_READ (R156). -/
def execCrossRead (dt : Nat) (n : Link) (s : State) : Host.Outcome State Fault Refusal :=
  .next ((s.advance dt).linkCommand n .crossRead)

/-- PORT_PARAMS (R19). -/
def execPortParams (dt : Nat) (n : Link) (a : PortParamsArgs) (s : State) : Host.Outcome State Fault Refusal :=
  .next ((s.advance dt).linkCommand n (.portParams a))

/-- PEN_PARAMS (R74). -/
def execPenParams (dt : Nat) (n : Link) (a : PenParamsArgs) (s : State) : Host.Outcome State Fault Refusal :=
  .next ((s.advance dt).linkCommand n (.penParams a))

/-- PEN_RESUME (R69). -/
def execPenResume (dt : Nat) (n : Link) (s : State) : Host.Outcome State Fault Refusal :=
  .next ((s.advance dt).linkCommand n .penResume)

/-- PICK_PARAMS (R92). -/
def execPickParams (dt : Nat) (n : Link) (a : PickParamsArgs) (s : State) : Host.Outcome State Fault Refusal :=
  .next ((s.advance dt).linkCommand n (.pickParams a))

/-- MODE_SET (R95). -/
def execModeSet (dt : Nat) (n : Link) (mode : Byte) (s : State) : Host.Outcome State Fault Refusal :=
  .next ((s.advance dt).linkCommand n (.modeSet mode))

/-- PICK_CANCEL (R107). -/
def execPickCancel (dt : Nat) (n : Link) (s : State) : Host.Outcome State Fault Refusal :=
  .next ((s.advance dt).linkCommand n .pickCancel)

/-- SNAP_SET (R166). -/
def execSnapSet (dt : Nat) (n : Link) (a : SnapSetArgs) (s : State) : Host.Outcome State Fault Refusal :=
  .next ((s.advance dt).linkCommand n (.snapSet a))

/-- NOTICE_MASK (R176). -/
def execNoticeMask (dt : Nat) (n : Link) (classes : Byte) (s : State) : Host.Outcome State Fault Refusal :=
  .next ((s.advance dt).linkCommand n (.noticeMask classes))

/-- FLAGS_CLEAR (R179). -/
def execFlagsClear (dt : Nat) (n : Link) (flags : Word) (s : State) : Host.Outcome State Fault Refusal :=
  .next ((s.advance dt).linkCommand n (.flagsClear flags))

/-- STATS_READ (R181). -/
def execStatsRead (dt : Nat) (n : Link) (clear : Byte) (s : State) : Host.Outcome State Fault Refusal :=
  .next ((s.advance dt).linkCommand n (.statsRead clear))

/-- STATUS_READ (R182). -/
def execStatusRead (dt : Nat) (n : Link) (s : State) : Host.Outcome State Fault Refusal :=
  .next ((s.advance dt).linkCommand n .statusRead)

/-- IDENT (R183). -/
def execIdent (dt : Nat) (n : Link) (s : State) : Host.Outcome State Fault Refusal :=
  .next ((s.advance dt).linkCommand n .ident)

/-- LINK_RESET (R184). -/
def execLinkReset (dt : Nat) (n : Link) (link : Byte) (s : State) : Host.Outcome State Fault Refusal :=
  .next ((s.advance dt).linkCommand n (.linkReset link))

/-- PART_RESET (R185). -/
def execPartReset (dt : Nat) (n : Link) (s : State) : Host.Outcome State Fault Refusal :=
  .next ((s.advance dt).linkCommand n .partReset)

/-- POWER_ON (R186, R169; log 25): the straps are read, and the pen lines are first sampled. -/
def execPowerOn (rate : LineRate) (tip : TipLevel) (line enable : Bool) (s : State) : Host.Outcome State Fault Refusal :=
  .next (s.afterReset .powerOn rate (penAfterReset tip line enable))

/-- RESET_LINE (R186). -/
def execResetLine (dt : Nat) (s : State) : Host.Outcome State Fault Refusal := .next ((s.advance dt).resetKept .resetLine)

/-- CHARACTER_TAKEN (R170). -/
def execCharacterTaken (dt : Nat) (n : Link) (byte : Byte) (stopOk : Bool) (s : State) :
    Host.Outcome State Fault Refusal :=
  .next ((s.advance dt).characterTaken n byte stopOk)

end Sys2Proof.Machine
end

