-- ==== Sys2Proof/Machine/ExecPort.lean ====
section
/-! DEFINITION. The meanings of the commands of the stroke port and of the pen: time passes (log 2), then the event takes place. -/

namespace Sys2Proof.Machine

/-- FRAME_OPEN (R8, R9): a partly written VECTOR is abandoned (R2), then the record arrives. -/
def execFrameOpen (dt : Nat) (seq : Byte) (endOrder : FrameEndOrder) (startOrder : FrameStartOrder) (s : State) :
    Host.Outcome State Fault Refusal :=
  .next ((s.advance dt).abandonRecord.frameOpens seq endOrder startOrder)

/-- SEGMENT_OPEN (R11): a single word, so its stamp is the frame time of its arrival (R2). -/
def execSegmentOpen (dt : Nat) (seg : BitVec 10) (s : State) : Host.Outcome State Fault Refusal :=
  let t := (s.advance dt).abandonRecord
  .next (t.segmentOpens seg.toNat t.port.frameTime)

/-- SEGMENT_CLOSE (R11). -/
def execSegmentClose (dt : Nat) (s : State) : Host.Outcome State Fault Refusal :=
  let t := (s.advance dt).abandonRecord
  .next (t.segmentCloses t.port.frameTime)

/-- VECTOR (R12): stamped at its first word, and arriving at its last, `span` ticks later (R2; log 9). -/
def execVector (dt : Nat) (span : Nat) (beam : Bool) (p : Stroke) (s : State) : Host.Outcome State Fault Refusal :=
  let t := (s.advance dt).abandonRecord
  .next ((t.advance span).vectorArrives beam p t.port.frameTime)

/-- FRAME_CLOSE (R10). -/
def execFrameClose (dt : Nat) (endOrder : FrameEndOrder) (s : State) : Host.Outcome State Fault Refusal :=
  .next ((s.advance dt).abandonRecord.frameCloses endOrder)

/-- The ticks that pass before the history takes an entry: one at least after another entry was taken (R4, log 14). -/
def historyWait (dt : Nat) (s : State) : Nat := if dt = 0 ∧ s.hist.took then 1 else dt

/-- The history takes the oldest entry of a FIFO that is not empty (R4, R51). -/
def State.takeOldest (s : State) : State :=
  if s.port.fifo.isEmpty then s
  else
    let t := s.handOldest
    { t with hist := { t.hist with took := true } }

/-- HISTORY_ENTRY (R51). -/
def execHistoryEntry (dt : Nat) (s : State) : Host.Outcome State Fault Refusal :=
  .next (s.advance (historyWait dt s)).takeOldest

/-- ABSENCE_TIMER_EXPIRY (R15; log 3). -/
def execAbsenceTimerExpiry (endOrder : FrameEndOrder) (darkOrder : DarkOrder) (s : State) :
    Host.Outcome State Fault Refusal :=
  .next (if (s.runTo .absence).2 then (s.runTo .absence).1.absenceExpires endOrder darkOrder else (s.runTo .absence).1)

/-- The ticks until the frame time counter stands at its limit; while DARK it does not move (R1). -/
def ticksToLimit (s : State) : Nat :=
  match s.port.mode with
  | .dark => 0
  | .inFrame => Config.frameTimeLimit - s.port.frameTime
  | .between => Config.frameTimeLimit - s.port.frameTime

/-- FRAME_TIME_LIMIT (R1; log 3). -/
def execFrameTimeLimit (s : State) : Host.Outcome State Fault Refusal := .next (s.advance (ticksToLimit s))

/-- ANSWER_READ (R3). -/
def execAnswerRead (dt : Nat) (s : State) : Host.Outcome State Fault Refusal := .next (s.advance dt).readAnswer

/-- STRAY_WORD (R2, R188; log 8). -/
def execStrayWord (dt : Nat) (w : Word) (s : State) : Host.Outcome State Fault Refusal :=
  .next ((s.advance dt).wordWritten w)

/-- PULSE_LEADING_EDGE (R61). -/
def execPulseLeadingEdge (dt : Nat) (enable : Bool) (s : State) : Host.Outcome State Fault Refusal :=
  .next ((s.advance dt).leadingEdge enable)

/-- PULSE_END (R63). -/
def execPulseEnd (dt : Nat) (s : State) : Host.Outcome State Fault Refusal := .next (s.advance dt).pulseReleased

/-- PULSE_QUALIFY (R63; log 3). -/
def execPulseQualify (s : State) : Host.Outcome State Fault Refusal :=
  .next (if (s.runTo .qualify).2 then (s.runTo .qualify).1.qualify else (s.runTo .qualify).1)

/-- TIP_LEVEL_CHANGE (R71). -/
def execTipLevelChange (dt : Nat) (level : TipLevel) (s : State) : Host.Outcome State Fault Refusal :=
  .next ((s.advance dt).tipShows level)

/-- TIP_DEBOUNCE_EXPIRY (R71; log 3). -/
def execTipDebounceExpiry (s : State) : Host.Outcome State Fault Refusal :=
  .next (if (s.runTo .debounce).2 then (s.runTo .debounce).1.debounce else (s.runTo .debounce).1)

end Sys2Proof.Machine
end

