-- ==== Sys2Proof/Machine/Dispatch.lean ====
section
/-! DEFINITION. The dispatch of a command to its meaning, one arm per constructor of `Instr`. -/

namespace Sys2Proof.Machine

def exec (i : Instr) (s : State) : Host.Outcome State Fault Refusal :=
  match i with
  | .frameOpen dt seq endOrder startOrder => Sys2Proof.Machine.execFrameOpen dt seq endOrder startOrder s
  | .segmentOpen dt seg => Sys2Proof.Machine.execSegmentOpen dt seg s
  | .segmentClose dt => Sys2Proof.Machine.execSegmentClose dt s
  | .vector dt span beam p => Sys2Proof.Machine.execVector dt span beam p s
  | .frameClose dt endOrder => Sys2Proof.Machine.execFrameClose dt endOrder s
  | .historyEntry dt => Sys2Proof.Machine.execHistoryEntry dt s
  | .absenceTimerExpiry endOrder darkOrder => Sys2Proof.Machine.execAbsenceTimerExpiry endOrder darkOrder s
  | .frameTimeLimit => Sys2Proof.Machine.execFrameTimeLimit s
  | .answerRead dt => Sys2Proof.Machine.execAnswerRead dt s
  | .strayWord dt w => Sys2Proof.Machine.execStrayWord dt w s
  | .pulseLeadingEdge dt enable => Sys2Proof.Machine.execPulseLeadingEdge dt enable s
  | .pulseEnd dt => Sys2Proof.Machine.execPulseEnd dt s
  | .pulseQualify => Sys2Proof.Machine.execPulseQualify s
  | .tipLevelChange dt level => Sys2Proof.Machine.execTipLevelChange dt level s
  | .tipDebounceExpiry => Sys2Proof.Machine.execTipDebounceExpiry s
  | .linkFrameComplete dt n dir mtype payload => Sys2Proof.Machine.execLinkFrameComplete dt n dir mtype payload s
  | .frameFailed dt n reason => Sys2Proof.Machine.execFrameFailed dt n reason s
  | .gapTimerExpiry n => Sys2Proof.Machine.execGapTimerExpiry n s
  | .transmissionEnd dt n failFirst => Sys2Proof.Machine.execTransmissionEnd dt n failFirst s
  | .unknownType dt n dir mtype => Sys2Proof.Machine.execUnknownType dt n dir mtype s
  | .segDefine dt n a => Sys2Proof.Machine.execSegDefine dt n a s
  | .segSet dt n a => Sys2Proof.Machine.execSegSet dt n a s
  | .segShare dt n seg => Sys2Proof.Machine.execSegShare dt n seg s
  | .segRelease dt n seg => Sys2Proof.Machine.execSegRelease dt n seg s
  | .segMenu dt n a => Sys2Proof.Machine.execSegMenu dt n a s
  | .segQuery dt n seg => Sys2Proof.Machine.execSegQuery dt n seg s
  | .viewSet dt n a => Sys2Proof.Machine.execViewSet dt n a s
  | .echoSet dt n e style => Sys2Proof.Machine.execEchoSet dt n e style s
  | .filterInsert dt n a => Sys2Proof.Machine.execFilterInsert dt n a s
  | .filterDelete dt n index => Sys2Proof.Machine.execFilterDelete dt n index s
  | .filterEnable dt n index enabled => Sys2Proof.Machine.execFilterEnable dt n index enabled s
  | .filterRead dt n index => Sys2Proof.Machine.execFilterRead dt n index s
  | .pagePush dt n page => Sys2Proof.Machine.execPagePush dt n page s
  | .pageBack dt n => Sys2Proof.Machine.execPageBack dt n s
  | .pageHome dt n => Sys2Proof.Machine.execPageHome dt n s
  | .dwellSet dt n dw => Sys2Proof.Machine.execDwellSet dt n dw s
  | .crossPlace dt n x y => Sys2Proof.Machine.execCrossPlace dt n x y s
  | .crossPark dt n => Sys2Proof.Machine.execCrossPark dt n s
  | .crossParams dt n slew k => Sys2Proof.Machine.execCrossParams dt n slew k s
  | .crossRead dt n => Sys2Proof.Machine.execCrossRead dt n s
  | .portParams dt n a => Sys2Proof.Machine.execPortParams dt n a s
  | .penParams dt n a => Sys2Proof.Machine.execPenParams dt n a s
  | .penResume dt n => Sys2Proof.Machine.execPenResume dt n s
  | .pickParams dt n a => Sys2Proof.Machine.execPickParams dt n a s
  | .modeSet dt n mode => Sys2Proof.Machine.execModeSet dt n mode s
  | .pickCancel dt n => Sys2Proof.Machine.execPickCancel dt n s
  | .snapSet dt n a => Sys2Proof.Machine.execSnapSet dt n a s
  | .noticeMask dt n classes => Sys2Proof.Machine.execNoticeMask dt n classes s
  | .flagsClear dt n flags => Sys2Proof.Machine.execFlagsClear dt n flags s
  | .statsRead dt n clear => Sys2Proof.Machine.execStatsRead dt n clear s
  | .statusRead dt n => Sys2Proof.Machine.execStatusRead dt n s
  | .ident dt n => Sys2Proof.Machine.execIdent dt n s
  | .linkReset dt n link => Sys2Proof.Machine.execLinkReset dt n link s
  | .partReset dt n => Sys2Proof.Machine.execPartReset dt n s
  | .powerOn rate tip line enable => Sys2Proof.Machine.execPowerOn rate tip line enable s
  | .resetLine dt => Sys2Proof.Machine.execResetLine dt s
  | .characterTaken dt n byte stopOk => Sys2Proof.Machine.execCharacterTaken dt n byte stopOk s

end Sys2Proof.Machine
end

