-- ==== Sys2Proof/Machine/Step.lean ====
section
/-! DEFINITION. One step: the command at the front of the queue, or on an empty queue one beam tick (log 1). -/

namespace Sys2Proof.Machine

/-- The state with a command put at the front of its queue, where a word of the table spells one (none does). -/
def State.withFetchWord (s : State) (nbits w : Nat) : State :=
  match decodeTableWord nbits w with
  | some c => { s with pending := c :: s.pending }
  | none => s

/-- One step of the part (log 1): the command at the front of the queue is carried out on the state with the queue's rest. -/
def step (s : State) : Host.Outcome State Fault Refusal :=
  match s.pending with
  | c :: rest => exec c { s with pending := rest }
  | [] => .next (s.advance 1)

end Sys2Proof.Machine
end

