-- ==== Sys2Proof/Safety.lean ====
section
/-! DEFINITION. What a safe run of the part is: the bounds of its stores, the form of its directory, the ranges of its parameters, what
its port state rules out, and how its link units stand between commands. Also the words statements share. -/

namespace Sys2Proof.Machine

/-- The outcome of a step is a next state. -/
def goesOn (o : Host.Outcome State Fault Refusal) : Prop := ∃ t, o = .next t

/-! ## Invariants -/

/-- Every store holds no more than its places, and the frame time stays within its limit (R1, R3, R4, R36, R44, R48, R70, R108, R122,
R134, R140, R172, R175). -/
structure State.Bounded (s : State) : Prop where
  frameTime : s.port.frameTime ≤ Config.frameTimeLimit
  fifo : s.port.fifo.length ≤ Config.fifoSize
  answers : s.port.answers.length ≤ 3
  changes : s.dir.changes.length ≤ Config.changeListSize
  echoes : s.dir.echoes.length ≤ Config.echoListSize
  ring : s.hist.ring.length ≤ Config.ringSize
  waiting : s.pen.waiting.length ≤ Config.waitingSize
  tally : s.res.tally.length ≤ Config.tallySize
  filters : s.filt.entries.length ≤ Config.filterListSize
  next : s.menu.next.length ≤ Config.stackSize
  current : s.menu.current.length ≤ Config.stackSize
  sums : s.menu.sums.length ≤ Config.frameSumsSize
  inbound : ∀ n, (s.unit n).inbound.length ≤ Config.inboundSize
  queue : ∀ n, (s.unit n).queue.length ≤ Config.noticeQueueSize

/-- A staged change names only a segment 0..1022 (R23, R27). -/
def ChangeOp.named (op : ChangeOp) : Prop := ∀ seg, op.seg = some seg → seg < Config.crossSegment

/-- The directory's table holds each segment 0..1022 at most once, in order, and every DEFINED entry has an owner (R22, log 20); the
staged changes name such segments. -/
structure State.DirectoryFormed (s : State) : Prop where
  entries : Dir.wf s.dir.entries = true
  changes : ∀ c ∈ s.dir.changes, c.op.named

/-- A scale a view may have (R160). -/
def View.scaled (v : View) : Prop := 1 ≤ v.sc ∧ v.sc ≤ 16777215

/-- A staged change to the view has a scale a view may have (R34). -/
def ChangeOp.scaled : ChangeOp → Prop
  | .view v => v.scaled
  | _ => True

/-- Every parameter lies in the range that its command clamps it to, and the cross on the screen (R19, R34, R45, R74, R92, R145, R147,
R155). -/
structure State.InRange (s : State) : Prop where
  highWater : 2 ≤ s.port.h ∧ s.port.h ≤ 16
  lowWater : s.port.lw < s.port.h
  absence : 10 ≤ s.port.ta ∧ s.port.ta ≤ 1000
  wmin : 1 ≤ s.pen.wmin ∧ s.pen.wmin ≤ 15
  deadTime : s.pen.dd ≤ 255
  floodLimit : 1 ≤ s.pen.f ∧ s.pen.f ≤ 255
  debounce : 1 ≤ s.pen.tb ∧ s.pen.tb ≤ 31
  latency : s.corr.l ≤ 255
  halfWidth : s.corr.w ≤ 63
  frames : 1 ≤ s.res.n ∧ s.res.n ≤ 15
  threshold : 1 ≤ s.res.t ∧ s.res.t ≤ 65535
  margin : s.res.d ≤ 65535
  dwell : s.menu.dw = 0 ∨ (2 ≤ s.menu.dw ∧ s.menu.dw ≤ 60)
  slew : s.cross.slew ≤ 255
  lostAfter : 1 ≤ s.cross.k ∧ s.cross.k ≤ 63
  cross : s.cross.x ≤ 4095 ∧ s.cross.y ≤ 4095
  echo : s.dir.echoLength ≤ 255
  view : s.coord.view.scaled
  staged : ∀ c ∈ s.dir.changes, c.op.scaled

/-- What the port state rules out (R4, R6, R14, R15, R36, R56, R64, R70, R105, R134), and what a VECTOR record of the ring holds: its
coordinates, and an element index exactly where it has a segment (3.1, R52). -/
structure State.Coherent (s : State) : Prop where
  noRecords : s.port.mode ≠ .inFrame → s.port.fifo = [] ∧ s.port.pendingGap = none ∧ s.port.openSeg = none ∧ s.port.resync = false
  noHits : s.port.mode ≠ .inFrame → s.pen.pulse = none ∧ s.pen.waiting = [] ∧ s.hist.isOpen = false
  nothingStaged : s.port.mode = .dark → s.dir.changes = [] ∧ s.dir.sweeps = .none
  noAbsence : s.port.mode = .dark → s.port.absence = 0
  onePage : s.port.mode = .dark → s.menu.current = s.menu.next
  noAttempt : s.port.mode = .dark → s.res.attempt = .idle ∨ s.res.attempt = .held
  strokes : ∀ r ∈ s.hist.ring, r.kind = .vector → r.stroke ≠ none ∧ (r.seg = none ↔ r.element = none)

/-- Between commands no command is being carried out, an idle transmitter leaves nothing waiting to be sent, and a frame waits only
behind a reply (R173, R174). -/
structure State.LinksServed (s : State) : Prop where
  notBusy : ∀ n, (s.unit n).busy = false
  sent : ∀ n, (s.unit n).tx = none → (s.unit n).slot = none ∧ (s.unit n).queue = []
  taken : ∀ n, (s.unit n).slot = none → (s.unit n).inbound = []

/-! ## Words that statements share -/

/-- A link on which a command that completes is taken at once: its reply slot and inbound buffer are empty (R173), and no command of it
is being carried out. -/
structure State.Ready (s : State) (n : Link) : Prop where
  slot : (s.unit n).slot = none
  inbound : (s.unit n).inbound = []
  notBusy : (s.unit n).busy = false

/-- The state with a frame's end seen by the receiver of a link and a reply placed for it. -/
def State.replied (s : State) (n : Link) (r : Reply) : State := (s.setReceiver n .hunting).placeReply n r

/-- What a command leaves that a ready link takes at once (R173, R174): the receiver hunts, the command's work is done while the link's
transmitter begins no frame, and then its reply is placed. -/
def State.carriedOut (s : State) (n : Link) (work : State → State) (r : Reply) : State :=
  ((work ((s.setReceiver n .hunting).setBusy n true)).setBusy n false).placeReply n r

/-- Every parameter that a settings command sets stands as it was (R19, R45, R74, R92, R120, R145, R155, R166). -/
def sameParameters (s t : State) : Prop :=
  (t.port.h, t.port.lw, t.port.ta) = (s.port.h, s.port.lw, s.port.ta) ∧
    (t.pen.wmin, t.pen.dd, t.pen.f, t.pen.tb) = (s.pen.wmin, s.pen.dd, s.pen.f, s.pen.tb) ∧
      (t.corr.l, t.corr.w) = (s.corr.l, s.corr.w) ∧ (t.res.n, t.res.t, t.res.d) = (s.res.n, s.res.t, s.res.d) ∧
        t.menu.dw = s.menu.dw ∧ (t.cross.slew, t.cross.k) = (s.cross.slew, s.cross.k) ∧
          (t.dir.echoLength, t.dir.echoStyle) = (s.dir.echoLength, s.dir.echoStyle) ∧
            (t.coord.px, t.coord.py, t.coord.gx, t.coord.gy) = (s.coord.px, s.coord.py, s.coord.gx, s.coord.gy)

/-- The end of a running frame whose FIFO has been emptied (R9, R10, R15): a pulse in progress is discarded (R64); the history does its
frame-end work, handed the pending gap start, whose GAP it reports (R56, R58); every waiting hit is correlated (R79); then the pen
input's reckoning, the cross tracker's update, the resolver's count and the menu controller's dwell each do their work once, in the
order that the operand gives (log 5). An attempt begun meanwhile is no longer marked as begun at this frame end. -/
def endsFrame (s : State) (endTime : Nat) (order : FrameEndOrder) (t : State) : Prop :=
  ∃ (p z w : State) (tasks : List (State → State)),
    tasks.Perm [penReckoning, crossUpdate, resolverCount, menuDwell] ∧ tasks = (endTasks order).map runFrameEndTask ∧
      p = (if s.pen.pulse = none then s
           else { s with pen := { s.pen with pulse := none }, stats := s.stats.count .discarded }) ∧
        z = { p with
              hist := p.hist.frameEnd endTime s.port.pendingGap
              corr :=
                { p.corr with
                  newestStart := (match s.port.pendingGap with | some g => some g | none => p.corr.newestStart) }
              port := { p.port with pendingGap := none, resync := false, openSeg := none } } ∧
          w = tasks.foldl (fun a task => task a) z.frameHits ∧ t = { w with res := { w.res with fresh := false } }

/-- The start of a frame on a state without one (R8): the port, the history, the pen input and the correlator begin anew; the directory
applies its staged work and makes its echo step (R37, R46), then hands on its withdrawn set and a view change (R34, R39, R104); the menu
controller does its work at the place that the operand gives (R136, log 5); then the answer is formed (R18). -/
def startsFrame (s : State) (seq : Byte) (order : FrameStartOrder) (t : State) : Prop :=
  ∃ (f w : State) (hand : State → State),
    f = { s with
          port :=
            { s.port with
              mode := .inFrame, resync := false, openSeg := none, lastSeq := seq, frameTime := 0, absence := 0 }
          hist :=
            { s.hist with
              ring := [], isOpen := true, openSeg := none, elementCount := 0, gapOpen := false, wrapped := false }
          pen := { s.pen with lastHit := none, hitCount := 0, flooded := false }
          corr := { s.corr with newestStart := none, frameDone := false, frame := s.corr.frame + 1 }
          stats := s.stats.count .frames } ∧
      ((∃ c ∈ s.dir.changes, c.op.isView = true) → hand = fun a => (a.handWithdrawn true).loseAttempt .viewChanged) ∧
        ((∀ c ∈ s.dir.changes, c.op.isView = false) → hand = fun a => a.handWithdrawn true) ∧
          w = (match order with
                | .menuFirst => hand f.menuFrameStart.applyStaged.echoStep
                | .menuBetween => hand f.applyStaged.echoStep.menuFrameStart
                | .menuLast => (hand f.applyStaged.echoStep).menuFrameStart) ∧
            t = { w with port := { w.port with answers := frameAnswer w.cross.shown seq w.cross.x w.cross.y } }

/-- The entry into DARK (R15): the timer stops at zero and the DARK flag is set; then the directory applies its staged work and hands on
its withdrawn set (R40), an attempt is lost (R105) and the menu controller does its work (R136, R144), each once, in the order that the
operand gives (log 5). -/
def entersDark (s : State) (order : DarkOrder) (t : State) : Prop :=
  ∃ tasks : List (State → State),
    tasks.Perm [fun a => a.applyStaged.handWithdrawn false, fun a => a.loseAttempt .noFrames, State.menuDark] ∧
      tasks = (darkTasks order).map runDarkTask ∧
        t = tasks.foldl (fun a task => task a) (State.setFlag { s with port := { s.port with mode := .dark, absence := 0 } } .dark)

/-- A reply has gone to a link (R173, R174): an idle transmitter has begun it, a busy one leaves it in the slot. -/
def answered (s t : State) (n : Link) (r : Reply) : Prop :=
  (t.unit n).rx = .hunting ∧ (t.unit n).inbound = [] ∧
    ((s.unit n).tx = none → (t.unit n).tx = some (.reply r) ∧ (t.unit n).slot = none) ∧
    ((s.unit n).tx ≠ none → (t.unit n).tx = (s.unit n).tx ∧ (t.unit n).slot = some r)

/-- A notice queue of every link has room (R175). -/
def State.Roomy (s : State) : Prop := ∀ n, (s.unit n).queue.length < Config.noticeQueueSize

/-- A notice for one link: where the link's queue has room it has been offered, joining the queue if the mask holds its class, and the
transmitter has made its choice (R174 to R176). -/
def told (s t : State) (n : Link) (x : Notice) : Prop :=
  (s.unit n).queue.length < Config.noticeQueueSize → t.unit n = ((s.unit n).offer x).1

/-- A notice for both links that a command of link n caused: where both queues have room, the other link has been offered it, and at
link n, whose transmitter waits for the reply (R174), it stands last in the queue. -/
def toldBoth (s t : State) (n : Link) (x : Notice) : Prop :=
  s.Roomy →
    t.unit (otherLink n) = ((s.unit (otherLink n)).offer x).1 ∧
      (t.unit n).queue =
        (s.unit n).queue
          ++ (if enables (s.unit n).mask x then [{ notice := x, lossBefore := (s.unit n).lossMark }] else [])

/-- The command that carries a link command on a link. -/
def linkInstr (dt : Nat) (n : Link) : LinkCmd → Instr
  | .segDefine a => .segDefine dt n a
  | .segSet a => .segSet dt n a
  | .segShare seg => .segShare dt n seg
  | .segRelease seg => .segRelease dt n seg
  | .segMenu a => .segMenu dt n a
  | .segQuery seg => .segQuery dt n seg
  | .viewSet a => .viewSet dt n a
  | .echoSet e style => .echoSet dt n e style
  | .filterInsert a => .filterInsert dt n a
  | .filterDelete index => .filterDelete dt n index
  | .filterEnable index enabled => .filterEnable dt n index enabled
  | .filterRead index => .filterRead dt n index
  | .pagePush page => .pagePush dt n page
  | .pageBack => .pageBack dt n
  | .pageHome => .pageHome dt n
  | .dwellSet dw => .dwellSet dt n dw
  | .crossPlace x y => .crossPlace dt n x y
  | .crossPark => .crossPark dt n
  | .crossParams slew k => .crossParams dt n slew k
  | .crossRead => .crossRead dt n
  | .portParams a => .portParams dt n a
  | .penParams a => .penParams dt n a
  | .penResume => .penResume dt n
  | .pickParams a => .pickParams dt n a
  | .modeSet mode => .modeSet dt n mode
  | .pickCancel => .pickCancel dt n
  | .snapSet a => .snapSet dt n a
  | .noticeMask classes => .noticeMask dt n classes
  | .flagsClear flags => .flagsClear dt n flags
  | .statsRead clear => .statsRead dt n clear
  | .statusRead => .statusRead dt n
  | .ident => .ident dt n
  | .linkReset link => .linkReset dt n link
  | .partReset => .partReset dt n

/-- What a change command asks for once check 1 of R27 has passed, and whether a value was clamped (R28 to R34, R167), against a
projected directory; none where check 1 refuses it, and for the other commands. -/
def changeOf (projected : Dir) : LinkCmd → Option (ChangeOp × Bool)
  | .segDefine a =>
    match classOf a.cls, highlightOf a.highlight with
    | some cls, some highlight =>
      if a.seg.toNat < 1023 then
        some
          (.define a.seg.toNat
            { cls := cls, tag := a.tag, visible := a.switches.getLsbD 0, detectable := a.switches.getLsbD 1
              intensity := intensityOf a.intensity, highlight := highlight
              priority := if cls = .drawing then priorityOf a.priority else 0
              granularity := if a.switches.getLsbD 3 then .element else .segment, share := a.switches.getLsbD 2 },
            decide (3 < a.intensity.toNat ∨ (cls = .drawing ∧ 7 < a.priority.toNat)))
      else none
    | _, _ => none
  | .segSet a =>
    let unranked : Bool := match Dir.find projected a.seg.toNat with | some e => e.cls != .drawing | none => false
    if a.seg.toNat < 1023 ∧ a.present.getLsbD 7 = false ∧ (a.present.getLsbD 4 = true → highlightOf a.highlight ≠ none) then
      some
        (.set a.seg.toNat
          { tag := if a.present.getLsbD 0 then some a.tag else none
            visible := if a.present.getLsbD 1 then some (a.switches.getLsbD 0) else none
            detectable := if a.present.getLsbD 2 then some (a.switches.getLsbD 1) else none
            intensity := if a.present.getLsbD 3 then some (intensityOf a.intensity) else none
            highlight := if a.present.getLsbD 4 then highlightOf a.highlight else none
            priority := if a.present.getLsbD 5 then some (if unranked then 0 else priorityOf a.priority) else none
            granularity := if a.present.getLsbD 6 then some (if a.switches.getLsbD 3 then .element else .segment) else none },
          decide ((a.present.getLsbD 3 = true ∧ 3 < a.intensity.toNat) ∨
            (a.present.getLsbD 5 = true ∧ unranked = false ∧ 7 < a.priority.toNat)))
    else none
  | .segShare seg => if seg.toNat < 1023 then some (.share seg.toNat, false) else none
  | .segRelease seg => if seg.toNat < 1023 then some (.release seg.toNat, false) else none
  | .segMenu a =>
    if a.seg.toNat < 1023 then
      if a.page = 0xFF then some (.menu a.seg.toNat none, false)
      else
        match boundPageOf a.page, menuActionOf a.action a.target with
        | some page, some action =>
          some (.menu a.seg.toNat (some { page := page, action := action, notify := a.notify.getLsbD 0 }), false)
        | _, _ => none
    else none
  | .viewSet a =>
    match orientationOf a.orientation with
    | some o =>
      some
        (.view { orientation := o, ox := a.ox, oy := a.oy, sc := max 1 (min a.sc.toNat 16777215) },
          decide (a.sc.toNat = 0 ∨ 16777215 < a.sc.toNat))
    | none => none
  | _ => none

/-- The six change commands (2.3). -/
def isChange : LinkCmd → Bool
  | .segDefine _ => true
  | .segSet _ => true
  | .segShare _ => true
  | .segRelease _ => true
  | .segMenu _ => true
  | .viewSet _ => true
  | _ => false

/-- The bytes taken by a receiver one after another, until a frame fails or completes. -/
def feed : Receiver → List Byte → ReceiverStep
  | rx, [] => .goesOn rx
  | rx, b :: rest =>
    match rx.take b with
    | .goesOn rx' => feed rx' rest
    | .fails reason => .fails reason
    | .completes f => .completes f

end Sys2Proof.Machine
end

