-- ==== Sys2Proof/Certificates/Slice0/Obligations.lean ====
section
/-! DEFINITION. The statements for the provers. A command that carries `dt` acts on the state `s.advance dt` (log 2). -/

open Sys2Proof Sys2Proof.Machine

/-! ## The machine -/

/-- A step carries out the command at the front of the queue on the state with the queue's rest. -/
def Obligations.StepRunsCommandAtFront : Prop :=
  ∀ (c : Instr) (s : State) (rest : List Instr), step { s with pending := c :: rest } = exec c { s with pending := rest }

/-- The state after reset meets every invariant. -/
def Obligations.ResetMeetsInvariants : Prop :=
  State.reset.Bounded ∧ State.reset.DirectoryFormed ∧ State.reset.InRange ∧ State.reset.Coherent ∧ State.reset.LinksServed

/-- Every step keeps every store within its places. -/
def Obligations.StepKeepsBounds : Prop :=
  ∀ s t : State, s.Bounded → step s = .next t → t.Bounded

/-- Every step keeps the directory's form and the form of its staged changes. -/
def Obligations.StepKeepsDirectoryFormed : Prop :=
  ∀ s t : State, s.DirectoryFormed → step s = .next t → t.DirectoryFormed

/-- Every step keeps every parameter in the range its command clamps it to, and the cross on the screen. -/
def Obligations.StepKeepsParametersInRange : Prop :=
  ∀ s t : State, s.InRange → step s = .next t → t.InRange

/-- Every step keeps what the port state rules out. -/
def Obligations.StepKeepsPortCoherent : Prop :=
  ∀ s t : State, s.Coherent → step s = .next t → t.Coherent

/-- Every step leaves both links served. -/
def Obligations.StepKeepsLinksServed : Prop :=
  ∀ s t : State, s.LinksServed → step s = .next t → t.LinksServed

/-- No command stops the part (log 28): every step answers a next state; on an empty queue it is one beam tick later (log 1). -/
def Obligations.EveryStepGoesOn : Prop :=
  (∀ s : State, goesOn (step s)) ∧ ∀ s : State, s.pending = [] → step s = .next (s.advance 1)

/-- Time adds: ticks that pass in two parts pass as in one, whatever falls due on the way. A tick in which nothing is due advances the frame
time and the absence timer by one while the port is IN_FRAME or BETWEEN, the frame time no further than 10,000,000, and leaves both while
it is DARK (R1, R14); the pulse in progress, the debounce timer and the gaps of the receivers age by one, the history may take an entry
again, and all else stands. What is due now comes before the next tick, as its own command gives it, in the model's order (log 2): the
qualification, the debounce, the gap of link 0 and of link 1, the absence expiry with the default orders (log 5). -/
def Obligations.TimeAdds : Prop :=
  (∀ (s : State) (d e : Nat), (s.advance d).advance e = s.advance (d + e)) ∧
    ∀ (s : State) (pulse tip absent : Bool) (gap : Link → Bool) (older : Receiver → Receiver),
      pulse = s.pen.pulse.any (fun p => decide (p.wmin ≤ p.stood)) →
        tip = s.pen.tipTimer.any (fun e => decide (s.pen.tb * Config.ticksPerMs ≤ e)) →
          gap = (fun n => match (s.unit n).rx with | .hunting => false | .receiving _ g => decide (Config.gapLimit ≤ g)) →
            absent = decide (s.port.mode ≠ .dark ∧ s.port.ta * Config.ticksPerMs ≤ s.port.absence) →
              older = (fun rx => match rx with | .hunting => .hunting | .receiving bytes g => .receiving bytes (g + 1)) →
                (pulse = false → tip = false → gap .link0 = false → gap .link1 = false → absent = false →
                  s.advance 1 =
                    { s with
                      port :=
                        if s.port.mode = .dark then s.port
                        else
                          { s.port with
                            frameTime := min (s.port.frameTime + 1) 10000000, absence := s.port.absence + 1 }
                      pen :=
                        { s.pen with
                          pulse := s.pen.pulse.map (fun p => { p with stood := p.stood + 1 })
                          tipTimer := s.pen.tipTimer.map (fun e => e + 1) }
                      hist := { s.hist with took := false }
                      links :=
                        { s.links with
                          u0 := { s.links.u0 with rx := older s.links.u0.rx }
                          u1 := { s.links.u1 with rx := older s.links.u1.rx } } }) ∧
                  (s.port.frameTime ≤ Config.frameTimeLimit →
                    (pulse = true → ∃ u, exec .pulseQualify s = .next u ∧ s.advance 1 = u.advance 1) ∧
                      (pulse = false → tip = true → ∃ u, exec .tipDebounceExpiry s = .next u ∧ s.advance 1 = u.advance 1) ∧
                        (pulse = false → tip = false → gap .link0 = true →
                          ∃ u, exec (.frameFailed 0 .link0 .short) s = .next u ∧ s.advance 1 = u.advance 1) ∧
                          (pulse = false → tip = false → gap .link0 = false → gap .link1 = true →
                            ∃ u, exec (.frameFailed 0 .link1 .short) s = .next u ∧ s.advance 1 = u.advance 1) ∧
                            (pulse = false → tip = false → gap .link0 = false → gap .link1 = false → absent = true →
                              ∃ u, exec (.absenceTimerExpiry defaultEndOrder defaultDarkOrder) s = .next u ∧
                                s.advance 1 = u.advance 1))

/-! ## Links: layouts -/

/-- A command's frame is decoded as the command, every field with every value. -/
def Obligations.FrameDecodesToItsCommand : Prop :=
  ∀ c : LinkCmd, decodeFrame (encodeCommand c) = .command c

/-- The bytes of a frame of at most 60 payload bytes, taken one after another by a hunting receiver, complete that frame. -/
def Obligations.FrameBytesCompleteTheFrame : Prop :=
  ∀ f : Frame, f.payload.length ≤ Config.payloadLimit → feed .hunting (frameBytes f) = .completes f

/-- CHECK is the CRC-8 of R190 over HEAD, LEN and the payload, in the frames sent and in the frames received. The frames the part sends have
direction 1 (R189): a reply is of type 30h, its payload the type it answers, the code and the values (12.3); a notice is of type 38h to
3Fh, with the payload of 12.3, R191 and R193 for its kind, LOSS_BEFORE in bit 7 of the pick flags or of the first byte. Fields of two and
four bytes are sent most significant byte first (R187). The flag set's bits stand in the order of R178. -/
def Obligations.CheckIsTheCrc : Prop :=
  ((∀ r : Byte, crcShift r = if r.getLsbD 7 then (r <<< 1) ^^^ 0xD5#8 else r <<< 1) ∧
    crc8 [] = 0xFF#8 ∧
      (∀ (bytes : List Byte) (b : Byte), crc8 (bytes ++ [b]) = Nat.repeat crcShift 8 (crc8 bytes ^^^ b)) ∧
        (∀ f : Frame, ∃ body : List Byte, body = headByte f.dir f.mtype :: byteOf f.payload.length :: f.payload ∧
          frameBytes f = 0xC3#8 :: body ++ [crc8 body]) ∧
          (∀ (head len b : Byte) (payload : List Byte) (g : Nat), payload.length = len.toNat →
            (Receiver.take (.receiving (head :: len :: payload) g) b = .fails .check ↔ b ≠ crc8 (head :: len :: payload))) ∧
            crc8 [0xA0#8] = 0xB2#8 ∧ frameBytes (encodeCommand .ident) = [0xC3#8, 0xA0#8, 0x00#8, 0x66#8]) ∧
    (∀ m : BitVec 6, headByte true m = 0x40#8 ||| m.zeroExtend 8 ∧ headByte false m = 0x80#8 ||| m.zeroExtend 8) ∧
      (∀ (v : Nat) (i : Int) (w : Word) (x : Long), byteOf v = BitVec.ofNat 8 v ∧ wordBytes v = bytes16 (BitVec.ofNat 16 v) ∧
        bytes16 w = [w.extractLsb' 8 8, w.extractLsb' 0 8] ∧ signedBytes i = bytes32 (BitVec.ofInt 32 i) ∧
          bytes32 x = [x.extractLsb' 24 8, x.extractLsb' 16 8, x.extractLsb' 8 8, x.extractLsb' 0 8]) ∧
        (∀ (r : Reply) (code : Byte),
          code = (match r.code with
            | .ok => 0 | .clamped => 1 | .denied => 2 | .range => 3 | .state => 4 | .full => 5 | .unknown => 6 | .reject => 7) →
            Sending.bytes (.reply r) =
              frameBytes { dir := true, mtype := 0x30#6, payload := [r.mtype.zeroExtend 8, code] ++ r.values }) ∧
          (∀ (x : Notice) (loss : Bool) (mtype : BitVec 6) (payload : List Byte) (lead : Nat → Byte)
              (marked : Nat → Bool → List Byte),
            lead = (fun v => byteOf ((if loss then 128 else 0) + v)) →
              marked = (fun v mark => wordBytes (v + if mark then 0x8000 else 0)) →
                mtype = (match x with
                  | .pick _ => 0x38#6
                  | .mode _ _ => 0x39#6
                  | .cross _ _ _ _ => 0x3A#6
                  | .condition _ => 0x3B#6
                  | .settings _ _ => 0x3C#6
                  | .skipped _ _ _ _ => 0x3D#6
                  | .page _ _ _ => 0x3E#6
                  | .restarted _ => 0x3F#6) →
                  payload = (match x with
                    | .pick p =>
                      [match p.kind with | .element => 1 | .point => 2 | .menu => 3 | .ambiguous => 4 | .missed => 5 | .lost => 6,
                        p.attempt, byteOf p.frames,
                        match p.reason with
                          | .absent => 0 | .none => 1 | .weak => 2 | .viewChanged => 3 | .noFrames => 4 | .penMuted => 5
                          | .cancelled => 6,
                        BitVec.ofBool loss ++ BitVec.ofBool p.flags.dwell ++ BitVec.ofBool p.flags.snapped
                          ++ BitVec.ofBool p.flags.saturated ++ BitVec.ofBool p.flags.elementSaturated
                          ++ BitVec.ofBool p.flags.withdrawn ++ BitVec.ofBool p.flags.overflow ++ BitVec.ofBool p.flags.gap]
                        ++ (match p.primary with
                          | none => []
                          | some q =>
                            [match q.source with | .none => 0 | .cross => 1 | .element => 2]
                              ++ (match q.picked with
                                | none => [0xFF, 0xFF, 0xFF, 0xFF, 0, 0, 0, 0, 0, 0]
                                | some k =>
                                  marked k.seg k.whole ++ marked k.element k.saturated ++ bytes16 k.tag ++ wordBytes k.score
                                    ++ [byteOf k.hits, byteOf k.framesSeen])
                              ++ wordBytes q.screen.x ++ wordBytes q.screen.y ++ signedBytes q.loftX ++ signedBytes q.loftY)
                        ++ (if p.kind = .ambiguous then
                            byteOf p.list.length
                              :: p.list.flatMap (fun k =>
                                marked k.seg k.whole ++ marked k.element k.saturated ++ bytes16 k.tag ++ wordBytes k.score
                                  ++ [byteOf k.priority])
                          else [])
                    | .mode m owner =>
                      [lead ((match m with | .element => 0 | .point => 1) + (if owner.l0 then 2 else 0)
                        + (if owner.l1 then 4 else 0))]
                    | .cross st x y seq =>
                      [lead (match st with | .parked => 0 | .tracking => 1 | .lost => 2)] ++ wordBytes x ++ wordBytes y ++ [seq]
                    | .condition flags => [lead 0] ++ bytes16 (flags.zeroExtend 16)
                    | .settings group values =>
                      [lead (match group with
                        | .pickParams => 0 | .penParams => 1 | .portParams => 2 | .crossParams => 3 | .snapSet => 4
                        | .echoSet => 5 | .dwellSet => 6)] ++ values
                    | .skipped reason kind seg seq =>
                      [lead reason.code, kind.zeroExtend 8] ++ (match seg with | none => [0xFF, 0xFF] | some k => wordBytes k)
                        ++ [seq]
                    | .page p depth seq => [lead p.val, byteOf depth, seq]
                    | .restarted cause =>
                      [lead (match cause with
                        | .powerOn => 0 | .resetLine => 1 | .partReset .link0 => 2 | .partReset .link1 => 6)]) →
                    Sending.bytes (.notice { notice := x, lossBefore := loss }) =
                      frameBytes { dir := true, mtype := mtype, payload := payload }) ∧
            ∀ f : ConditionFlag, f.bit = (match f with
              | .intakeDrop => 1#11 | .portProtocol => 2#11 | .dark => 4#11 | .flood => 8#11 | .penMuted => 16#11
              | .historyShort => 32#11 | .changeSkipped => 64#11 | .frameError .link0 => 128#11 | .frameError .link1 => 256#11
              | .queueLoss .link0 => 512#11 | .queueLoss .link1 => 1024#11)

/-- A link command row acts as the completion of the frame that carries it. -/
def Obligations.LinkCommandIsItsFrame : Prop :=
  ∀ (dt : Nat) (n : Link) (c : LinkCmd) (s : State),
    exec (linkInstr dt n c) s = exec (.linkFrameComplete dt n false c.mtype c.payload) s

/-- The five words of a VECTOR record, written one by one in one tick, act as the VECTOR record (R2, R188). That a STRAY_WORD
command carries any word, and so begins, continues and completes the record, is the model's choice (log 8). -/
def Obligations.FiveWordsMakeAVector : Prop :=
  ∀ (s : State) (beam : Bool) (p : Stroke), ∃ t₁ t₂ t₃ t₄ w₀ w₁ w₂ w₃ w₄,
    vectorWords beam p = [w₀, w₁, w₂, w₃, w₄] ∧ exec (.strayWord 0 w₀) s = .next t₁ ∧ exec (.strayWord 0 w₁) t₁ = .next t₂ ∧
      exec (.strayWord 0 w₂) t₂ = .next t₃ ∧ exec (.strayWord 0 w₃) t₃ = .next t₄ ∧
        exec (.strayWord 0 w₄) t₄ = exec (.vector 0 0 beam p) s

/-! ## Flags, notices and the transmitter -/

/-- A flag's cause (R178): a flag already set changes nothing; one that was clear is set, no flag is cleared, and every other flag but the
two QUEUE_LOSS flags keeps its value. Where the queues have room, QUEUE_LOSS keeps its value too, and each link is offered a CONDITION
notice that lists every flag then set; a full queue may set QUEUE_LOSS (R175). -/
def Obligations.FlagFromClearTellsBothLinks : Prop :=
  ∀ (s : State) (f : ConditionFlag),
    (flagSet s.flags f = true → s.setFlag f = s) ∧
      (flagSet s.flags f = false →
        flagSet (s.setFlag f).flags f = true ∧ (∀ g, flagSet s.flags g = true → flagSet (s.setFlag f).flags g = true) ∧
          (∀ g, g ≠ f → (∀ n, g ≠ .queueLoss n) → flagSet (s.setFlag f).flags g = flagSet s.flags g) ∧
          (s.Roomy →
            s.setFlag f =
              { s with
                flags := s.flags ||| f.bit
                links :=
                  { s.links with
                    u0 := (s.links.u0.offer (.condition (s.flags ||| f.bit))).1
                    u1 := (s.links.u1.offer (.condition (s.flags ||| f.bit))).1 } }))

/-- A notice meant for a link (R175, R176): of a class the mask lacks, it leaves the link's unit as it was; another joins the tail of a
queue with room, carries LOSS_BEFORE where the loss mark was set, and clears the mark; one that finds the queue full is dropped for
that link alone, with the queue as it was and the loss mark and QUEUE_LOSS set, and the other link is offered a CONDITION notice if
the flag was clear (and its queue has room), and nothing otherwise. Where both queues have room, a notice for a set of links is offered to
the links of the set and changes nothing else. -/
def Obligations.NoticeJoinsOrIsDropped : Prop :=
  (∀ (u : LinkUnit) (x : Notice),
    (enables u.mask x = false → u.offer x = (u, false)) ∧
      (enables u.mask x = true → u.queue.length < Config.noticeQueueSize →
        u.offer x =
          (({ u with queue := u.queue ++ [{ notice := x, lossBefore := u.lossMark }], lossMark := false } : LinkUnit).kick,
            false))) ∧
    (∀ (s : State) (targets : LinkSet) (x : Notice), s.Roomy →
      s.post targets x =
        { s with
          links :=
            { s.links with
              u0 := if targets.l0 then (s.links.u0.offer x).1 else s.links.u0
              u1 := if targets.l1 then (s.links.u1.offer x).1 else s.links.u1 } }) ∧
    ∀ (s : State) (n : Link) (x : Notice), enables (s.unit n).mask x = true →
      Config.noticeQueueSize ≤ (s.unit n).queue.length →
        ((s.post (.single n) x).unit n = { s.unit n with lossMark := true }) ∧
          flagSet (s.post (.single n) x).flags (.queueLoss n) = true ∧
            (flagSet s.flags (.queueLoss n) = true → (s.post (.single n) x).unit (otherLink n) = s.unit (otherLink n)) ∧
              (flagSet s.flags (.queueLoss n) = false → (s.unit (otherLink n)).queue.length < Config.noticeQueueSize →
                (s.post (.single n) x).unit (otherLink n) =
                  ((s.unit (otherLink n)).offer (.condition (s.flags ||| (ConditionFlag.queueLoss n).bit))).1)

/-- The transmitter's choice (R174): while it sends, or while a command of its link is carried out, it begins nothing; idle it begins
the reply in the slot, or else the oldest notice, which leave their places, and otherwise stays idle. -/
def Obligations.TransmitterSendsTheReplyFirst : Prop :=
  ∀ u : LinkUnit,
    (u.busy = true ∨ u.tx ≠ none → u.kick = u) ∧
      (u.busy = false → u.tx = none →
        (∀ r, u.slot = some r → u.kick = { u with tx := some (.reply r), slot := none }) ∧
          (u.slot = none →
            (∀ q rest, u.queue = q :: rest → u.kick = { u with tx := some (.notice q), queue := rest }) ∧
              (u.queue = [] → u.kick = u)))

/-! ## The stroke port -/

/-- A queued record that arrives IN_FRAME and finds fewer than 16 entries joins the FIFO (R4, R6, R7, R11, R12): with its stamp, the
pending gap start, and the lost mark of RESYNC, which a SEGMENT-OPEN ends; the open segment follows it, a SEGMENT-OPEN is answered
(R17), an implicit close sets PORT_PROTOCOL, a VECTOR is counted. All else stands. An entry may hold a gap start while an earlier one
does (log 31). The answer (R17, R25, R46): the cross segment is drawn unless the cross is PARKED, with intensity 3; a FREE segment is
answered with zeros; a DEFINED one with its effective visibility, its intensity, and the shown style where it is in the shown set or
else its highlight. -/
def Obligations.QueuedRecordJoinsTheFifo : Prop :=
  (∀ (s : State) (seg : Nat),
    (seg = 1023 → s.answerFor seg = if s.cross.state = .parked then 0x0300#16 else 0x8300#16) ∧
      (seg ≠ 1023 → s.entry seg = none → s.answerFor seg = 0x0000#16) ∧
        ∀ (e : Entry) (visible : Bool) (style : Highlight), seg ≠ 1023 → s.entry seg = some e →
          (visible = true ↔
            e.visible = true ∧
              ∀ b, e.cls = .menu → e.binding = some b → b.page = .all ∨ b.page = .page (topPage s.menu.current)) →
            style =
                (if seg ∈ s.dir.shown then
                  match s.dir.shownStyle with
                    | .bright => .bright
                    | .blink => .blink
                    | .dash => .dash
                else e.highlight) →
              s.answerFor seg =
                BitVec.ofNat 16
                  ((if visible then 0x8000 else 0) + e.intensity.val * 0x100
                    + (match style with | .none => 0 | .bright => 1 | .blink => 2 | .dash => 3))) ∧
  (∀ (dt : Nat) (seg : BitVec 10) (s a b : State), a = (s.advance dt).abandonRecord.dropAnswers →
    a.port.mode = .inFrame → a.port.fifo.length < Config.fifoSize →
      b = (if a.port.openSeg.isSome then a.setFlag .portProtocol else a) →
        exec (.segmentOpen dt seg) s =
          .next
            { b with
              port :=
                { a.port with
                  openSeg := some seg.toNat, resync := false, pendingGap := none
                  fifo :=
                    a.port.fifo
                      ++ [{ record := .segmentOpen seg.toNat, stamp := a.port.frameTime, lost := false,
                            gapStart := a.port.pendingGap }]
                  hold := if a.port.h ≤ a.port.fifo.length + 1 then true else a.port.hold
                  answers := [a.answerFor seg.toNat] } }) ∧
    (∀ (dt : Nat) (s a : State), a = (s.advance dt).abandonRecord.dropAnswers → a.port.mode = .inFrame →
      a.port.openSeg ≠ none → a.port.fifo.length < Config.fifoSize →
        exec (.segmentClose dt) s =
          .next
            { a with
              port :=
                { a.port with
                  openSeg := none, pendingGap := none
                  fifo :=
                    a.port.fifo
                      ++ [{ record := .segmentClose, stamp := a.port.frameTime, lost := a.port.resync,
                            gapStart := a.port.pendingGap }]
                  hold := if a.port.h ≤ a.port.fifo.length + 1 then true else a.port.hold } }) ∧
      (∀ (dt span : Nat) (beam : Bool) (p : Stroke) (s a : State),
        a = ((s.advance dt).abandonRecord.advance span).dropAnswers → a.port.mode = .inFrame →
          a.port.fifo.length < Config.fifoSize →
            exec (.vector dt span beam p) s =
              .next
                (State.count
                  { a with
                    port :=
                      { a.port with
                        pendingGap := none
                        fifo :=
                          a.port.fifo
                            ++ [{ record := .vector beam p, stamp := (s.advance dt).port.frameTime, lost := a.port.resync,
                                  gapStart := a.port.pendingGap }]
                        hold := if a.port.h ≤ a.port.fifo.length + 1 then true else a.port.hold } }
                  .vectors))

/-- A queued record that arrives IN_FRAME and finds 16 entries is dropped (R5): the FIFO, the history and the hold line stand, the first
drop's stamp becomes the pending gap start, RESYNC is entered, INTAKE_DROP set and INTAKE_DROPS counted; a SEGMENT-OPEN is still answered
as QueuedRecordJoinsTheFifo states, the open segment still follows, a VECTOR is still counted. That PORT_PROTOCOL, where the arrival sets
it too (R3, R11), is set before INTAKE_DROP is the model's choice (log 33). -/
def Obligations.QueuedRecordDroppedAtFullFifo : Prop :=
  (∀ (dt : Nat) (seg : BitVec 10) (s a b : State), a = (s.advance dt).abandonRecord.dropAnswers →
    a.port.mode = .inFrame → Config.fifoSize ≤ a.port.fifo.length →
      b = (if a.port.openSeg.isSome then a.setFlag .portProtocol else a) →
        exec (.segmentOpen dt seg) s =
          .next
            (State.answer
              (State.count
                (State.setFlag
                  { b with
                    port :=
                      { a.port with
                        openSeg := some seg.toNat, resync := true
                        pendingGap := if a.port.resync then a.port.pendingGap else some a.port.frameTime } }
                  .intakeDrop)
                .intakeDrops)
              [a.answerFor seg.toNat])) ∧
    (∀ (dt : Nat) (s a : State), a = (s.advance dt).abandonRecord.dropAnswers → a.port.mode = .inFrame →
      a.port.openSeg ≠ none → Config.fifoSize ≤ a.port.fifo.length →
        exec (.segmentClose dt) s =
          .next
            (State.count
              (State.setFlag
                { a with
                  port :=
                    { a.port with
                      openSeg := none, resync := true
                      pendingGap := if a.port.resync then a.port.pendingGap else some a.port.frameTime } }
                .intakeDrop)
              .intakeDrops)) ∧
      (∀ (dt span : Nat) (beam : Bool) (p : Stroke) (s a : State),
        a = ((s.advance dt).abandonRecord.advance span).dropAnswers → a.port.mode = .inFrame →
          Config.fifoSize ≤ a.port.fifo.length →
            exec (.vector dt span beam p) s =
              .next
                (State.count
                  (State.count
                    (State.setFlag
                      { a with
                        port :=
                          { a.port with
                            resync := true
                            pendingGap :=
                              if a.port.resync then a.port.pendingGap else some (s.advance dt).port.frameTime } }
                      .intakeDrop)
                    .intakeDrops)
                  .vectors))

/-- A record other than FRAME-OPEN that arrives outside a frame is discarded and sets PORT_PROTOCOL, and a SEGMENT-OPEN is answered with
draw = no, intensity 0 and highlight NONE (R13); a SEGMENT-CLOSE with no segment open is ignored likewise (R11). -/
def Obligations.RecordOutsideItsPlaceIsDiscarded : Prop :=
  (∀ (dt : Nat) (seg : BitVec 10) (s a : State), a = (s.advance dt).abandonRecord.dropAnswers → a.port.mode ≠ .inFrame →
    exec (.segmentOpen dt seg) s = .next ((a.setFlag .portProtocol).answer [0x0000#16])) ∧
    (∀ (dt : Nat) (s a : State), a = (s.advance dt).abandonRecord.dropAnswers →
      (a.port.mode ≠ .inFrame ∨ a.port.openSeg = none) → exec (.segmentClose dt) s = .next (a.setFlag .portProtocol)) ∧
      (∀ (dt span : Nat) (beam : Bool) (p : Stroke) (s a : State),
        a = ((s.advance dt).abandonRecord.advance span).dropAnswers → a.port.mode ≠ .inFrame →
          exec (.vector dt span beam p) s = .next (a.setFlag .portProtocol)) ∧
        (∀ (dt : Nat) (e : FrameEndOrder) (s a : State), a = (s.advance dt).abandonRecord.boundary → a.port.mode ≠ .inFrame →
          exec (.frameClose dt e) s = .next (a.setFlag .portProtocol))

/-- One answer word is read (R3): the oldest pending one, or a word of zeros with PORT_PROTOCOL set. The three words of a frame answer (12.1,
R18): the cross shown in bit 15 with the frame sequence in bits 7..0, then the cross x and the cross y. -/
def Obligations.AnswerReadTakesOneWord : Prop :=
  (∀ (dt : Nat) (s u : State), u = s.advance dt →
    (∀ w rest, u.port.answers = w :: rest →
      exec (.answerRead dt) s = .next { u with port := { u.port with answers := rest }, answerOut := w }) ∧
      (u.port.answers = [] → exec (.answerRead dt) s = .next (State.setFlag { u with answerOut := 0x0000#16 } .portProtocol))) ∧
    ∀ (shown : Bool) (seq : Byte) (x y : Nat),
      frameAnswer shown seq x y =
        [(if shown then 0x8000#16 else 0#16) ||| seq.zeroExtend 16, BitVec.ofNat 16 x, BitVec.ofNat 16 y]

/-- Unfinished work is cleared away with PORT_PROTOCOL set: a marked word abandons an incomplete record (R2), and a record's arrival discards
unread answer words of an earlier one (R3). A word that begins no record (R2, R188), without the marker where a first word is expected, or
marked with kind 0, 6 or 7, is discarded with PORT_PROTOCOL set; a marked word of kind 4 begins a VECTOR record, whose next words are
taken from their bits 11..0, and whose fifth word makes it arrive with the stamp of its first (R2, R12, R13); a marked word of kind 1, 2,
3 or 5 is the whole FRAME-OPEN, SEGMENT-OPEN, SEGMENT-CLOSE or FRAME-CLOSE record. That a STRAY_WORD command carries any word, and that a
boundary record so written takes the default orders, is the model's choice (log 8). -/
def Obligations.StrayWordIsDiscarded : Prop :=
  (∀ s : State,
    (s.port.assembler = none → s.abandonRecord = s) ∧
      (s.port.assembler ≠ none →
        s.abandonRecord = State.setFlag { s with port := { s.port with assembler := none } } .portProtocol) ∧
        (s.port.answers = [] → s.dropAnswers = s) ∧
          (s.port.answers ≠ [] →
            s.dropAnswers = State.setFlag { s with port := { s.port with answers := [] } } .portProtocol)) ∧
    ∀ (dt : Nat) (w : Word) (s u : State), u = s.advance dt →
      (wordMarked w = false → u.port.assembler = none → exec (.strayWord dt w) s = .next (u.setFlag .portProtocol)) ∧
        (wordMarked w = true → (wordKind w = 0 ∨ wordKind w = 6 ∨ wordKind w = 7) →
          exec (.strayWord dt w) s = .next (u.abandonRecord.setFlag .portProtocol)) ∧
          (wordMarked w = true → wordKind w = 4 →
            exec (.strayWord dt w) s =
              .next
                { u.abandonRecord with
                  port :=
                    { u.abandonRecord.port with
                      assembler := some { stamp := u.port.frameTime, beam := w.getLsbD 0, words := [] } } }) ∧
            (wordMarked w = true → wordKind w = 1 →
              exec (.strayWord dt w) s = exec (.frameOpen dt (w.extractLsb' 0 8) defaultEndOrder .menuLast) s) ∧
              (wordMarked w = true → wordKind w = 2 →
                exec (.strayWord dt w) s = exec (.segmentOpen dt (w.extractLsb' 0 10)) s) ∧
                (wordMarked w = true → wordKind w = 3 → exec (.strayWord dt w) s = exec (.segmentClose dt) s) ∧
                  (wordMarked w = true → wordKind w = 5 →
                    exec (.strayWord dt w) s = exec (.frameClose dt defaultEndOrder) s) ∧
                    ∀ p v, wordMarked w = false → u.port.assembler = some p → v = w.extractLsb' 0 12 →
                      (p.words.length ≠ 3 →
                        exec (.strayWord dt w) s =
                          .next { u with port := { u.port with assembler := some { p with words := p.words ++ [v] } } }) ∧
                        ∀ x0 y0 x1 a r, p.words = [x0, y0, x1] →
                          a = State.dropAnswers { u with port := { u.port with assembler := none } } →
                            r = .vector p.beam { x0 := x0, y0 := y0, x1 := x1, y1 := v } →
                              (a.port.mode ≠ .inFrame → exec (.strayWord dt w) s = .next (a.setFlag .portProtocol)) ∧
                                (a.port.mode = .inFrame → a.port.fifo.length < Config.fifoSize →
                                  exec (.strayWord dt w) s =
                                    .next
                                      (State.count
                                        { a with
                                          port :=
                                            { a.port with
                                              pendingGap := none
                                              fifo :=
                                                a.port.fifo
                                                  ++ [{ record := r, stamp := p.stamp, lost := a.port.resync,
                                                        gapStart := a.port.pendingGap }]
                                              hold := if a.port.h ≤ a.port.fifo.length + 1 then true else a.port.hold } }
                                        .vectors)) ∧
                                  (a.port.mode = .inFrame → Config.fifoSize ≤ a.port.fifo.length →
                                    exec (.strayWord dt w) s =
                                      .next
                                        (State.count
                                          (State.count
                                            (State.setFlag
                                              { a with
                                                port :=
                                                  { a.port with
                                                    resync := true
                                                    pendingGap := if a.port.resync then a.port.pendingGap else some p.stamp } }
                                              .intakeDrop)
                                            .intakeDrops)
                                          .vectors))

/-- A FRAME-OPEN (R8, R9, R18): a running frame is truncated first, with PORT_PROTOCOL set and its end at the frame time; then the frame
starts as `startsFrame` says: the port is IN_FRAME at frame time 0 with the sequence stored and its three answer words pending, the
history cleared, the pen's and the correlator's frame state begun anew, the directory brought to the projected one with nothing staged,
the next page stack made current and the frame sums emptied. The view in force is the last one staged; with one, an attempt in GATHERING
or CLOSING is LOST (R34, R104), and without one the attempt state stands. The withdrawn set leaves the tally, marks an attempt (R110) and
leaves the dwell state (R144). The cross, the filters and the parameters stand. -/
def Obligations.FrameOpenStartsAFrame : Prop :=
  (∀ (dt : Nat) (seq : Byte) (e : FrameEndOrder) (o : FrameStartOrder) (s b a : State) (views : List View),
    b = (s.advance dt).abandonRecord.boundary →
      a = (if b.port.mode = .inFrame then (b.setFlag .portProtocol).frameEnds b.port.frameTime e else b) →
        views = a.dir.changes.filterMap (fun c => match c.op with | .view v => some v | _ => none) →
          (b.port.mode = .inFrame → endsFrame (b.setFlag .portProtocol) b.port.frameTime e a) ∧
            ∃ t, exec (.frameOpen dt seq e o) s = .next t ∧ startsFrame a seq o t ∧ sameParameters b t ∧
              (b.port.mode = .inFrame → flagSet t.flags .portProtocol = true) ∧
                t.port =
                  { a.port with
                    mode := .inFrame, resync := false, openSeg := none, lastSeq := seq, frameTime := 0, absence := 0
                    answers := frameAnswer a.cross.shown seq a.cross.x a.cross.y } ∧
                  t.hist =
                    { a.hist with
                      ring := [], isOpen := true, openSeg := none, elementCount := 0, gapOpen := false, wrapped := false } ∧
                    t.pen = { a.pen with lastHit := none, hitCount := 0, flooded := false } ∧
                      t.corr = { a.corr with newestStart := none, frameDone := false, frame := a.corr.frame + 1 } ∧
                        t.dir.entries = a.dir.projected ∧ t.dir.changes = [] ∧ t.dir.sweeps = .none ∧
                          t.dir.shownStyle = a.dir.echoStyle ∧ (∀ k ∈ t.dir.shown, ∃ x ∈ a.dir.echoes, x.seg = k) ∧
                            (a.dir.changes = [] → a.dir.sweeps = .none → t.dir.shown = a.dir.echoes.map (fun x => x.seg)) ∧
                            t.menu.current = a.menu.next ∧ t.menu.next = a.menu.next ∧ t.menu.sums = [] ∧
                              t.cross = a.cross ∧ t.filt = a.filt ∧ t.stats.frames = countUp a.stats.frames ∧
                                t.coord.view = views.getLast?.getD a.coord.view ∧
                                  (views = [] → t.res.attempt = a.res.attempt ∧ t.stats.lost = a.stats.lost) ∧
                                    (views ≠ [] → a.res.attempt = .gathering ∨ a.res.attempt = .closing →
                                      t.stats.lost = countUp a.stats.lost ∧ t.res.tally = []) ∧
                                      (∀ k ∈ t.res.tally, k.key.seg ∉ t.dir.withdrawn) ∧
                                        (t.res.mode, t.res.modeOwner) = (a.res.mode, a.res.modeOwner) ∧
                                          t.answerOut = a.answerOut ∧ t.pending = a.pending) ∧
    ∀ (s : State) (atStart : Bool) (kept : List TallyEntry),
      kept = s.res.tally.filter (fun k => k.key.seg ∉ s.dir.withdrawn) →
        s.handWithdrawn atStart =
          { s with
            res :=
              { s.res with
                tally := kept
                withdrawn :=
                  s.res.withdrawn
                    || decide (atStart = true ∧ (s.res.attempt = .gathering ∨ s.res.attempt = .closing) ∧
                        kept.length < s.res.tally.length) }
            menu :=
              { s.menu with
                leading := s.menu.leading.filter (fun k => k ∉ s.dir.withdrawn)
                dwellCount := if s.menu.leading.any (fun k => k ∈ s.dir.withdrawn) then 0 else s.menu.dwellCount
                latched := s.menu.latched.filter (fun k => k ∉ s.dir.withdrawn) } }

/-- A FRAME-CLOSE in a frame (R10, R56, R64, R79): with PORT_PROTOCOL set if a segment was open, the frame ends as `endsFrame` says, with
every order of the four blocks' work commanded by some order operand (log 5); then the port is BETWEEN with no segment open and its
clocks running on, the history closed at the frame time, no pulse and no waiting hit left. The directory's entries and staged changes, the
filters, the coordinate unit and the parameters stand. -/
def Obligations.FrameCloseEndsTheFrame : Prop :=
  (∀ tasks : List FrameEndTask, tasks.Perm [.penReckoning, .crossUpdate, .resolverCount, .menuDwell] → ∃ e, endTasks e = tasks) ∧
    ∀ (dt : Nat) (e : FrameEndOrder) (s a b : State), a = (s.advance dt).abandonRecord.boundary → a.port.mode = .inFrame →
      b = (if a.port.openSeg = none then a else a.setFlag .portProtocol) →
        ∃ t f, exec (.frameClose dt e) s = .next t ∧ endsFrame b a.port.frameTime e f ∧
          t = { f with port := { f.port with mode := .between } } ∧ sameParameters a t ∧
            t.port = { a.port with mode := .between, resync := false, openSeg := none, pendingGap := none } ∧
              t.hist = a.hist.frameEnd a.port.frameTime a.port.pendingGap ∧
                t.pen.pulse = none ∧ t.pen.waiting = [] ∧ t.pen.lastHit = a.pen.lastHit ∧ t.corr.frameDone = true ∧
                  (a.port.openSeg ≠ none → flagSet t.flags .portProtocol = true) ∧
                    t.dir.entries = a.dir.entries ∧ t.dir.changes = a.dir.changes ∧ t.dir.sweeps = a.dir.sweeps ∧
                      t.filt = a.filt ∧ t.coord = a.coord ∧ t.menu.current = a.menu.current ∧
                        t.answerOut = a.answerOut ∧ t.pending = a.pending

/-- The expiry of the absence timer (R15): the ticks left pass, a running frame ends as truncated at the frame time, as `endsFrame` says,
and the port enters DARK as `entersDark` says: its timer at zero, the DARK flag set and no attempt gathering; the directory is the
projected one with nothing staged, the next page stack is current, and the frame sums, leading item and dwell count are emptied. The
parameters stand. While DARK the timer is stopped (log 3). -/
def Obligations.AbsenceExpiryEntersDark : Prop :=
  ∀ (e : FrameEndOrder) (o : DarkOrder) (s u : State),
    (s.port.mode = .dark → exec (.absenceTimerExpiry e o) s = .next s) ∧
      (s.port.mode ≠ .dark → u = s.advance (s.port.ta * Config.ticksPerMs - s.port.absence) →
        ∃ t, exec (.absenceTimerExpiry e o) s = .next t ∧ sameParameters u t ∧
          (s.port.mode = .between →
            entersDark u o t ∧ t.port = { u.port with mode := .dark, absence := 0 } ∧ t.hist = u.hist) ∧
            (s.port.mode = .inFrame →
              (∃ f, endsFrame u.flushFifo u.port.frameTime e f ∧ entersDark f o t) ∧
                t.port =
                    { u.flushFifo.port with
                      mode := .dark, absence := 0, resync := false, openSeg := none, pendingGap := none } ∧
                  t.hist = u.flushFifo.hist.frameEnd u.port.frameTime u.flushFifo.port.pendingGap ∧ t.pen.pulse = none ∧
                    t.pen.waiting = []) ∧
              flagSet t.flags .dark = true ∧ (t.res.attempt = .idle ∨ t.res.attempt = .held) ∧
                t.dir.entries = u.dir.projected ∧ t.dir.changes = [] ∧ t.dir.sweeps = .none ∧
                  t.menu.current = t.menu.next ∧ t.menu.sums = [] ∧ t.menu.leading = none ∧ t.menu.dwellCount = 0 ∧
                    t.filt = u.filt ∧ t.pending = s.pending ∧ t.answerOut = s.answerOut)

/-- The frame time counter at its limit (R1): where the absence timer lets the frame last that long, the ticks left pass and the counter
stands at 10,000,000, where further ticks leave it; while DARK it does not move. -/
def Obligations.FrameTimeStopsAtItsLimit : Prop :=
  ∀ s : State, s.port.frameTime ≤ Config.frameTimeLimit →
    (s.port.mode = .dark → exec .frameTimeLimit s = .next s) ∧
      (s.port.mode ≠ .dark →
        Config.frameTimeLimit - s.port.frameTime ≤ s.port.ta * Config.ticksPerMs - s.port.absence →
          exec .frameTimeLimit s = .next (s.advance (Config.frameTimeLimit - s.port.frameTime)) ∧
            (s.advance (Config.frameTimeLimit - s.port.frameTime)).port.frameTime = Config.frameTimeLimit ∧
              (∀ d, (s.advance (Config.frameTimeLimit - s.port.frameTime + d)).port.frameTime = Config.frameTimeLimit))

/-! ## The stroke history -/

/-- The history takes the oldest FIFO entry (R4, R7, R58), at most one in a beam tick (log 14): the entry leaves, the hold line is released at
the low-water mark, the entry is entered, folded or applied, and its start time, if it entered a record, is reported, whereupon the
release test is made (R78). Where no hit waits, all else stands; in any case the directory's entries, the filters, the coordinate unit and
the cross position stand. With an empty FIFO nothing is taken. The emptying of the FIFO at a boundary record or at absence expiry (R4, R7,
R9, R10, R15) hands over the oldest entry in the same way and then empties the rest, and leaves an empty FIFO as it is; at a boundary
record the discarding of unread answers follows it (log 24). -/
def Obligations.HistoryTakesTheOldestEntry : Prop :=
  (∀ (dt : Nat) (s w : State), w = s.advance (if dt = 0 ∧ s.hist.took then 1 else dt) →
    (w.port.fifo = [] → exec (.historyEntry dt) s = .next w) ∧
      (∀ (e : FifoEntry) (rest : List FifoEntry) (p : Port) (h : History) (c : Correlator), w.port.fifo = e :: rest →
        p = { w.port with fifo := rest, hold := if rest.length ≤ w.port.lw then false else w.port.hold } →
          h = { w.hist.takeEntry e with took := true } →
            c = (match e.reports with | none => w.corr | some start => { w.corr with newestStart := some start }) →
              (∃ t, exec (.historyEntry dt) s = .next t ∧ t.port = p ∧ t.hist = h ∧ t.corr = c ∧
                t.dir.entries = w.dir.entries ∧ t.dir.changes = w.dir.changes ∧ t.filt = w.filt ∧ t.coord = w.coord ∧
                  (t.cross.state, t.cross.x, t.cross.y, t.cross.miss) = (w.cross.state, w.cross.x, w.cross.y, w.cross.miss) ∧
                    t.answerOut = w.answerOut ∧ t.pending = w.pending ∧
                      (∀ x, x = { w with port := p, hist := { h with took := w.hist.took }, corr := c } →
                        t = { (if e.reports = none then x else x.releaseTest) with hist := h })) ∧
                (w.pen.waiting = [] → exec (.historyEntry dt) s = .next { w with port := p, hist := h, corr := c }))) ∧
    (∀ e : FifoEntry,
      (∀ beam p, e.lost = false → e.record = .vector beam p → e.reports = some e.stamp) ∧
        ((e.lost = true ∨ ∀ beam p, e.record ≠ .vector beam p) → e.reports = e.gapStart)) ∧
      (∀ s : State, s.port.fifo = [] → s.flushFifo = s) ∧
        (∀ (s x : State) (e : FifoEntry) (rest : List FifoEntry), s.port.fifo = e :: rest →
          x = { s with
                port :=
                  { s.port with fifo := rest, hold := if rest.length ≤ s.port.lw then false else s.port.hold }
                hist := s.hist.takeEntry e
                corr := match e.reports with | none => s.corr | some start => { s.corr with newestStart := some start } } →
            s.flushFifo = (if e.reports = none then x else x.releaseTest).flushFifo) ∧
          ∀ s : State, s.boundary = s.flushFifo.dropAnswers

/-- A VECTOR entry with a clear lost mark and no gap start, taken while no GAP is open, is entered as the newest record (R51, R52): the
record before it, if it has no end time, ends at the new start; a beam-off vector is a MOVE without segment or element; a stroke of
the open segment takes the next element index, 4095 marked saturated past 4096 strokes, and only such a stroke is counted. In a
full ring the oldest record is overwritten and wrapped becomes yes (R53). A segment record so taken enters no record (R50): a SEGMENT-OPEN
makes its segment the open one, a SEGMENT-CLOSE leaves none, and each sets the element count to 0. -/
def Obligations.StrokeIsEnteredAsTheNewestRecord : Prop :=
  (∀ (h : History) (beam : Bool) (p : Stroke) (stamp : Nat) (r : HistoryRecord) (old : List HistoryRecord), h.gapOpen = false →
    r = { kind := if beam then .vector else .move
          seg := if beam then h.openSeg else none
          element :=
            if beam = true ∧ h.openSeg ≠ none then
              some { index := min h.elementCount 4095, saturated := decide (h.elementCount = 4096) }
            else none
          start := stamp, stop := none, stroke := some p } →
      h.elementCount ≤ 4096 →
        (∀ init last, h.ring = init ++ [last] →
          old = init ++ [if last.stop = none then { last with stop := some stamp } else last]) →
          (h.ring = [] → old = []) →
            h.takeEntry { record := .vector beam p, stamp := stamp, lost := false, gapStart := none } =
              { h with
                ring := if h.ring.length < Config.ringSize then old ++ [r] else old.tail ++ [r]
                wrapped := if h.ring.length < Config.ringSize then h.wrapped else true
                elementCount :=
                  if beam = true ∧ h.openSeg ≠ none then min (h.elementCount + 1) 4096 else h.elementCount }) ∧
    ∀ (h : History) (stamp : Nat), h.gapOpen = false →
      (∀ seg,
        h.takeEntry { record := .segmentOpen seg, stamp := stamp, lost := false, gapStart := none } =
          { h with openSeg := some seg, elementCount := 0 }) ∧
        h.takeEntry { record := .segmentClose, stamp := stamp, lost := false, gapStart := none } =
          { h with openSeg := none, elementCount := 0 }

/-- A loss becomes one GAP record (R54, R55): the lost-marked entry that carries the gap start enters a GAP from there without end time,
ending the record before it, with no segment open; further lost-marked entries are folded into it; the SEGMENT-OPEN with a clear lost
mark ends it at its stamp and opens its segment, also where it carries the gap start itself. A record entered ends the one before it
where that has no end time, and overwrites the oldest of a full ring (R51, R53). The frame end (R56) gives the newest record the frame
end time where it has none, and with a gap start handed to it first enters a GAP from there to the frame end time (R6); then no segment
is open and the history is closed. -/
def Obligations.LossBecomesOneGap : Prop :=
  (∀ (h a : History) (record : QueuedRecord) (stamp g : Nat),
    a = h.enter { kind := .gap, seg := none, element := none, start := g, stop := none, stroke := none } →
      h.takeEntry { record := record, stamp := stamp, lost := true, gapStart := some g } =
          { a with gapOpen := true, openSeg := none, elementCount := 0 } ∧
        h.takeEntry { record := record, stamp := stamp, lost := true, gapStart := none } = h ∧
          (h.gapOpen = true → ∀ seg init last, h.ring = init ++ [last] → last.stop = none →
            h.takeEntry { record := .segmentOpen seg, stamp := stamp, lost := false, gapStart := none } =
              { h with
                ring := init ++ [{ last with stop := some stamp }], gapOpen := false, openSeg := some seg, elementCount := 0 }) ∧
            ∀ seg,
              h.takeEntry { record := .segmentOpen seg, stamp := stamp, lost := false, gapStart := some g } =
                { a with
                  ring :=
                    a.ring.dropLast
                      ++ [{ kind := .gap, seg := none, element := none, start := g, stop := some stamp, stroke := none }]
                  gapOpen := false, openSeg := some seg, elementCount := 0 }) ∧
    (∀ (h : History) (r : HistoryRecord) (old : List HistoryRecord),
      (h.ring = [] → old = []) →
        (∀ init last, h.ring = init ++ [last] →
          old = init ++ [if last.stop = none then { last with stop := some r.start } else last]) →
          h.enter r =
            { h with
              ring := if h.ring.length < Config.ringSize then old ++ [r] else old.tail ++ [r]
              wrapped := if h.ring.length < Config.ringSize then h.wrapped else true }) ∧
      ∀ (h : History) (endTime : Nat),
        (h.ring = [] →
          h.frameEnd endTime none = { h with openSeg := none, elementCount := 0, gapOpen := false, isOpen := false }) ∧
          (∀ init last, h.ring = init ++ [last] →
            h.frameEnd endTime none =
              { h with
                ring := init ++ [if last.stop = none then { last with stop := some endTime } else last]
                openSeg := none, elementCount := 0, gapOpen := false, isOpen := false }) ∧
            ∀ g,
              h.frameEnd endTime (some g) =
                { (h.enter
                    { kind := .gap, seg := none, element := none, start := g, stop := some endTime, stroke := none }) with
                  openSeg := none, elementCount := 0, gapOpen := false, isOpen := false }

/-! ## The pen -/

/-- The detection line found asserted (R60, R61, R62): no leading edge where it was asserted already; refused and counted in DISCARDED
outside a frame, with the enable line low or the pen MUTED; else counted in DEAD where the edge falls at a frame time less than the
last hit time plus Dd; else it becomes the pulse in progress with its time, its frame and the Wmin in force. All else stands. -/
def Obligations.LeadingEdgeIsTested : Prop :=
  ∀ (dt : Nat) (enable : Bool) (s u : State), u = s.advance dt →
    (u.pen.line = true → exec (.pulseLeadingEdge dt enable) s = .next u) ∧
      (u.pen.line = false →
        (u.port.mode ≠ .inFrame ∨ enable = false ∨ u.pen.muted = true →
          exec (.pulseLeadingEdge dt enable) s =
            .next { u with pen := { u.pen with line := true, enable := enable }, stats := u.stats.count .discarded }) ∧
          (u.port.mode = .inFrame → enable = true → u.pen.muted = false →
            (∀ th, u.pen.lastHit = some th → u.port.frameTime < th + u.pen.dd →
              exec (.pulseLeadingEdge dt enable) s =
                .next { u with pen := { u.pen with line := true, enable := true }, stats := u.stats.count .dead }) ∧
              ((∀ th, u.pen.lastHit = some th → th + u.pen.dd ≤ u.port.frameTime) →
                exec (.pulseLeadingEdge dt enable) s =
                  .next
                    { u with
                      pen :=
                        { u.pen with
                          line := true, enable := true
                          pulse :=
                            some { lead := u.port.frameTime, frame := u.corr.frame, wmin := u.pen.wmin, stood := 0 } } })))

/-- The detection line found released (R63): a pulse still in progress is narrow, also at exactly its leading edge plus Wmin, which
is the model's choice (log 19), counted, and no longer in progress; otherwise only the
line changes; a line already released changes nothing. -/
def Obligations.ReleasedPulseIsNarrow : Prop :=
  ∀ (dt : Nat) (s u : State), u = s.advance dt →
    (u.pen.line = false → exec (.pulseEnd dt) s = .next u) ∧
      (u.pen.line = true → u.pen.pulse = none → exec (.pulseEnd dt) s = .next { u with pen := { u.pen with line := false } }) ∧
        (u.pen.line = true → u.pen.pulse ≠ none →
          exec (.pulseEnd dt) s =
            .next { u with pen := { u.pen with line := false, pulse := none }, stats := u.stats.count .narrow })

/-- The pulse in progress qualifies once it has stood its Wmin ticks, if its frame lasts so long (R63, R65, R66, R70): it sets the last hit
time; a hit count at F or more, or a full list, discards the hit, the first marking the frame flooded; a hit that joins is counted in
HITS and meets the release test. Without a pulse the command changes nothing (log 3). The release test (R77, R78) looks at the oldest
waiting hit: it stays while no record start newer than its corrected time plus W has been reported; else it is taken off the list and
correlated, and the test goes on. At a frame end every waiting hit is correlated, oldest first (R79). -/
def Obligations.PulseQualifiesAsAHit : Prop :=
  (∀ s : State,
    (s.pen.waiting = [] →
      s.releaseTest = s ∧ s.frameHits = { s with corr := { s.corr with frameDone := true } }) ∧
      ∀ (th : Nat) (rest : List Nat) (a : State), s.pen.waiting = th :: rest →
        a = State.correlateHit { s with pen := { s.pen with waiting := rest } } th →
          ((∀ start, s.corr.newestStart = some start → (start : Int) ≤ th - s.corr.l + s.corr.w) → s.releaseTest = s) ∧
            (∀ start, s.corr.newestStart = some start → (th : Int) - s.corr.l + s.corr.w < start →
              s.releaseTest = a.releaseTest) ∧
              s.frameHits = a.frameHits) ∧
  ∀ s : State,
    (s.pen.pulse = none → exec .pulseQualify s = .next s) ∧
      ∀ (p : Pulse) (u : State), s.pen.pulse = some p → s.port.mode = .inFrame →
        p.wmin - p.stood ≤ s.port.ta * Config.ticksPerMs - s.port.absence → u = s.advance (p.wmin - p.stood) →
          ∃ t, exec .pulseQualify s = .next t ∧ t.pen.pulse = none ∧ t.pen.lastHit = some p.lead ∧ t.port = u.port ∧
            (u.pen.f ≤ u.pen.hitCount →
              t = { u with pen := { u.pen with pulse := none, lastHit := some p.lead, flooded := true },
                           stats := u.stats.count .discarded }) ∧
              (u.pen.hitCount < u.pen.f → t.pen.hitCount = u.pen.hitCount + 1 ∧ t.pen.flooded = u.pen.flooded ∧
                (Config.waitingSize ≤ u.pen.waiting.length →
                  t = { u with
                        pen := { u.pen with pulse := none, lastHit := some p.lead, hitCount := u.pen.hitCount + 1 }
                        stats := u.stats.count .discarded }) ∧
                  (u.pen.waiting.length < Config.waitingSize → t.stats.hits = countUp u.stats.hits ∧
                    t =
                      State.releaseTest
                        { u with
                          pen :=
                            { u.pen with
                              pulse := none, lastHit := some p.lead, hitCount := u.pen.hitCount + 1
                              waiting := u.pen.waiting ++ [p.lead] }
                          stats := u.stats.count .hits }))

/-- The tip switch line (R71): a level that differs from the raw one is taken, starting the debounce timer from zero where it differs from
the debounced state and stopping it where it does not; at the timer's end the debounced state takes the raw level, and its change is
handed to the resolver as a tip-down or tip-up event. -/
def Obligations.TipIsDebounced : Prop :=
  (∀ (dt : Nat) (level : TipLevel) (s u : State), u = s.advance dt →
    (level = u.pen.tipRaw → exec (.tipLevelChange dt level) s = .next u) ∧
      (level ≠ u.pen.tipRaw →
        exec (.tipLevelChange dt level) s =
          .next
            { u with
              pen := { u.pen with tipRaw := level, tipTimer := if level = u.pen.tipDebounced then none else some 0 } })) ∧
    (∀ s : State, s.pen.tipTimer = none → exec .tipDebounceExpiry s = .next s) ∧
      ∀ (s u : State) (e : Nat), s.pen.tipTimer = some e → u = s.advance (s.pen.tb * Config.ticksPerMs - e) →
        ∃ t a, exec .tipDebounceExpiry s = .next t ∧
          a = { u with pen := { u.pen with tipDebounced := u.pen.tipRaw, tipTimer := none } } ∧
            (u.pen.tipDebounced = .up → u.pen.tipRaw = .down → t = a.tipDown) ∧
              (u.pen.tipDebounced = .down → u.pen.tipRaw = .up → t = a.tipUp) ∧
                (u.pen.tipDebounced = u.pen.tipRaw → t = a) ∧
          t.pen = { u.pen with tipDebounced := u.pen.tipRaw, tipTimer := none } ∧ t.port = u.port ∧ t.hist = u.hist ∧
            t.dir.entries = u.dir.entries ∧ t.filt = u.filt ∧ t.cross = u.cross ∧ t.coord = u.coord

/-- Tip events (R98, R101). Tip-down: in IDLE it is ignored while MUTED; while DARK it begins an attempt that ends at once LOST, NO_FRAMES,
leaving HELD; otherwise it begins an attempt in GATHERING; in the other attempt states it changes nothing. Tip-up: it ends gathering,
with the hits then waiting to be awaited, or with the resolution at once where none waits; it ends a hold; in IDLE and CLOSING it
changes nothing. The frame count (R100): an attempt in GATHERING that did not begin at this frame end gathers one frame more, and at N
enters CLOSING with nothing to await and is resolved. The closing count (R102): the end of a hit's correlation decreases it while CLOSING,
and at the last the attempt is resolved. Neither changes anything in the other attempt states. -/
def Obligations.TipEventsMoveTheAttempt : Prop :=
  (∀ s : State,
    (s.res.attempt ≠ .gathering ∨ s.res.fresh = true → resolverCount s = s) ∧
      (s.res.attempt = .gathering → s.res.fresh = false →
        (s.res.frames + 1 < s.res.n → resolverCount s = { s with res := { s.res with frames := s.res.frames + 1 } }) ∧
          (s.res.n ≤ s.res.frames + 1 →
            resolverCount s =
              State.resolve { s with res := { s.res with frames := s.res.frames + 1, attempt := .closing, closing := 0 } })) ∧
        (s.res.attempt ≠ .closing → s.hitDone = s) ∧
          (s.res.attempt = .closing →
            (1 < s.res.closing → s.hitDone = { s with res := { s.res with closing := s.res.closing - 1 } }) ∧
              (s.res.closing ≤ 1 → s.hitDone = State.resolve { s with res := { s.res with closing := s.res.closing - 1 } }))) ∧
  (∀ s : State, s.pen.tipDebounced = .down →
    (s.res.attempt ≠ .idle → s.tipDown = s) ∧
      (s.res.attempt = .idle →
        (s.pen.muted = true → s.tipDown = s) ∧
          (s.pen.muted = false → s.port.mode = .dark →
            s.tipDown.res.attempt = .held ∧ s.tipDown.res.number = s.res.number + 1 ∧ s.tipDown.res.frames = 0 ∧
              s.tipDown.res.tally = [] ∧ s.tipDown.stats.attempts = countUp s.stats.attempts ∧
                s.tipDown.stats.lost = countUp s.stats.lost ∧
                  ∀ b z : State,
                    b = { s with
                          res :=
                            { s.res with
                              number := s.res.number + 1, frames := 0, releaseSeen := false, gap := false, overflow := false
                              withdrawn := false, closing := 0, tally := [], attempt := .gathering, fresh := false }
                          stats := s.stats.count .attempts } →
                      z =
                          (b.post s.res.modeOwner
                            (.pick
                              { kind := .lost, attempt := s.res.number + 1, frames := 0, reason := .noFrames
                                flags :=
                                  { gap := false, overflow := false, withdrawn := false, elementSaturated := false
                                    saturated := false, snapped := false, dwell := false }
                                primary := none, list := [] })).count .lost →
                        s.tipDown = { z with res := { z.res with tally := [], attempt := .held } }) ∧
            (s.pen.muted = false → s.port.mode ≠ .dark → ∀ f, (f = true ↔ s.port.mode = .inFrame ∧ s.hist.isOpen = false) →
              s.tipDown =
                { s with
                  res :=
                    { s.res with
                      number := s.res.number + 1, frames := 0, releaseSeen := false, gap := false, overflow := false
                      withdrawn := false, closing := 0, tally := [], attempt := .gathering, fresh := f }
                  stats := s.stats.count .attempts }))) ∧
    ∀ (s c : State),
      c = { s with res := { s.res with releaseSeen := true, attempt := .closing, closing := s.pen.waiting.length } } →
        (s.res.attempt = .gathering → s.pen.waiting ≠ [] → s.tipUp = c) ∧
          (s.res.attempt = .gathering → s.pen.waiting = [] → s.tipUp = c.resolve) ∧
            (s.res.attempt = .held → s.tipUp = { s with res := { s.res with tally := [], attempt := .idle } }) ∧
              (s.res.attempt = .idle ∨ s.res.attempt = .closing → s.tipUp = s)

/-- The flood reckoning (R67, R68, R106): none while MUTED; an unflooded frame sets the consecutive floods to 0; a flooded one increases
them by one and sets FLOOD; at the sixth the pen is MUTED, PEN_MUTED is set, and an attempt in GATHERING or CLOSING is LOST with reason
PEN_MUTED, so that none gathers on. -/
def Obligations.SixthFloodMutesThePen : Prop :=
  ∀ s a : State, a = State.setFlag { s with pen := { s.pen with floods := s.pen.floods + 1 } } .flood →
    (s.pen.muted = true → penReckoning s = s) ∧
      (s.pen.muted = false → s.pen.flooded = false → penReckoning s = { s with pen := { s.pen with floods := 0 } }) ∧
        (s.pen.muted = false → s.pen.flooded = true →
          (s.pen.floods + 1 < 6 → penReckoning s = a) ∧
            (6 ≤ s.pen.floods + 1 →
              penReckoning s =
                (State.setFlag { a with pen := { a.pen with muted := true } } .penMuted).loseAttempt .penMuted) ∧
          flagSet (penReckoning s).flags .flood = true ∧ (penReckoning s).pen.floods = s.pen.floods + 1 ∧
            ((penReckoning s).pen.muted = true ↔ 6 ≤ s.pen.floods + 1) ∧
              (6 ≤ s.pen.floods + 1 →
                flagSet (penReckoning s).flags .penMuted = true ∧
                  ((penReckoning s).res.attempt = .idle ∨ (penReckoning s).res.attempt = .held)))

/-! ## Correlation -/

/-- The distance of a span from a corrected time (R80), and the records kept of a hit (R82): the candidate records are the VECTORs of a
segment, ended, of duration greater than 0, at a distance of W or less, every one of them; of these at most four are kept, the nearest
first and of equally near ones the earlier first, and none passed over is nearer than one kept. -/
def Obligations.NearestFourRecordsAreKept : Prop :=
  (∀ (tc : Int) (ts te : Nat), ts < te →
    (tc < ts → spanDistance tc ts te = ts - tc) ∧ ((te : Int) ≤ tc → spanDistance tc ts te = tc - (te - 1)) ∧
      ((ts : Int) ≤ tc → tc < te → spanDistance tc ts te = 0)) ∧
    (∀ (tc : Int) (w : Nat) (ring : List HistoryRecord) (r : HistoryRecord) (seg te : Nat) (el : ElementMark) (p : Stroke), r ∈ ring →
      r.kind = .vector → r.seg = some seg → r.element = some el → r.stroke = some p → r.stop = some te → r.start < te →
        spanDistance tc r.start te ≤ w →
          ({ seg := seg, element := el, start := r.start, stop := te, stroke := p, distance := spanDistance tc r.start te } :
              ReadStroke) ∈ ring.filterMap (HistoryRecord.asCandidate tc w)) ∧
    (∀ (tc : Int) (w : Nat) (ring : List HistoryRecord) (k : ReadStroke), k ∈ keptRecords tc w ring →
      ∃ r ∈ ring, r.kind = .vector ∧ r.seg = some k.seg ∧ r.element = some k.element ∧ r.start = k.start ∧ r.stop = some k.stop ∧
        r.stroke = some k.stroke ∧ k.start < k.stop ∧ k.distance = spanDistance tc k.start k.stop ∧ k.distance ≤ w) ∧
        ∀ (tc : Int) (w : Nat) (ring : List HistoryRecord),
          (keptRecords tc w ring).length = min 4 (ring.filterMap (HistoryRecord.asCandidate tc w)).length ∧
            (keptRecords tc w ring).Pairwise (fun a b => a.distance < b.distance ∨ (a.distance = b.distance ∧ a.start ≤ b.start)) ∧
              ∀ a ∈ ring.filterMap (HistoryRecord.asCandidate tc w), a ∈ keptRecords tc w ring ∨
                ∀ k ∈ keptRecords tc w ring, k.distance < a.distance ∨ (k.distance = a.distance ∧ k.start ≤ a.start)

/-- What a hit does. The lookup (R83) gives no candidate for the cross segment, a FREE one, a MARK and one not detectable; another is keyed
by its granularity (R85), and of those with one key the first in the ranking stands; the filter list rejects it or answers with its
priority and route set, from its own priority (0 for MENU) and owner set, and a MENU takes priority 8 (R86, R90). The whole weight of 12
is spread evenly over those that remain, at most four (R87). A short read sets HISTORY_SHORT and counts UNMATCHED (R58). Otherwise the
arm points go to the cross (R84), and a hit that names nothing counts UNMATCHED, unless it met the cross (R88); another goes to the frame
sums in IDLE and, with its GAP mark (R81), to the tally in GATHERING and CLOSING, and is set aside in HELD (R99). A contribution adds to
the entry of its key, or makes a new one, or at a full tally marks the overflow (R109). -/
def Obligations.HitWeightIsSpreadEvenly : Prop :=
  (∀ (s : State) (tc : Int) (w : Nat) (ring : List HistoryRecord) (set : List Candidate),
    set = s.candidateSet tc (keptRecords tc w ring) →
      set.length ≤ 4 ∧ (∀ c ∈ set, c.weight = 12 / set.length) ∧
        (set ≠ [] → (set.map (fun c => c.weight)).sum = 12) ∧ (set.map (fun c => c.key)).Nodup ∧
          ∀ c ∈ set, c.key.seg ≠ Config.crossSegment ∧
            ∃ e, s.entry c.key.seg = some e ∧ e.cls ≠ .mark ∧ e.detectable = true ∧ c.cls = e.cls ∧ c.tag = e.tag ∧
              (e.cls = .menu → c.priority = 8) ∧ (e.cls = .drawing → c.priority ≤ 7)) ∧
    (∀ (s : State) (r : ReadStroke),
      (r.seg = 1023 ∨ s.entry r.seg = none ∨ (∃ e, s.entry r.seg = some e ∧ (e.cls = .mark ∨ e.detectable = false)) →
        s.lookUp r = none) ∧
        ∀ e, r.seg ≠ 1023 → s.entry r.seg = some e → e.cls ≠ .mark → e.detectable = true →
          s.lookUp r =
            some
              { read := r, entry := e
                key := { seg := r.seg, element := if e.granularity = .element then some r.element.index else none } }) ∧
      (∀ list : List Keyed, (firstOfKeys list).Sublist list ∧
        ∀ c, c ∈ firstOfKeys list ↔ ∃ before after, list = before ++ c :: after ∧ ∀ d ∈ before, d.key ≠ c.key) ∧
        (∀ (tc : Int) (list : List FilterEntry) (c : Keyed) (answer : WalkAnswer),
          answer =
              walk { seg := c.key.seg, cls := c.entry.cls, tag := c.entry.tag, owner := c.entry.owner } list
                (if c.entry.cls = .menu then 0 else c.entry.priority) c.entry.owner →
            (answer = .rejected → c.filtered tc list = none) ∧
              ∀ p route, answer = .stands p route →
                c.filtered tc list =
                  some
                    { key := c.key, cls := c.entry.cls, tag := c.entry.tag
                      priority := if c.entry.cls = .menu then 8 else p.val
                      route := route, weight := 0, point := c.read.beamPoint tc, element := c.read.element.index
                      saturated := c.read.element.saturated }) ∧
          (∀ (s : State) (tc : Int) (kept : List ReadStroke) (remaining : List Candidate),
            remaining = (firstOfKeys (kept.filterMap s.lookUp)).filterMap (Keyed.filtered tc s.filt.entries) →
              s.candidateSet tc kept = remaining.map (fun c => { c with weight := 12 / remaining.length })) ∧
            (∀ (s : State) (th : Nat) (tc : Int), tc = (th : Int) - s.corr.l →
              (s.hist.wrapped = true → (∃ r rest, s.hist.ring = r :: rest ∧ tc - s.corr.w < r.start) →
                s.correlateHit th = ((s.setFlag .historyShort).count .unmatched).hitDone) ∧
                ∀ (kept : List ReadStroke) (set : List Candidate) (gap : Bool) (x : State),
                  (s.hist.wrapped = false ∨ ∀ r rest, s.hist.ring = r :: rest → (r.start : Int) ≤ tc - s.corr.w) →
                    kept = keptRecords tc s.corr.w s.hist.ring → set = s.candidateSet tc kept →
                      (gap = true ↔
                        ∃ r ∈ s.hist.ring, r.kind = .gap ∧ ∃ te, r.stop = some te ∧
                          ((r.start < te ∧ spanDistance tc r.start te ≤ s.corr.w) ∨
                            (te ≤ r.start ∧ ((r.start : Int) - tc).natAbs ≤ s.corr.w))) →
                        x = { s with
                              cross :=
                                kept.foldl (fun c r => if r.seg = 1023 then c.armPoint r.stroke (r.beamPoint tc) else c)
                                  s.cross } →
                          (set = [] → (∃ r ∈ kept, r.seg = 1023) → s.correlateHit th = x.hitDone) ∧
                            (set = [] → (∀ r ∈ kept, r.seg ≠ 1023) → s.correlateHit th = (x.count .unmatched).hitDone) ∧
                              (set ≠ [] →
                                (s.res.attempt = .idle →
                                  s.correlateHit th =
                                    State.hitDone
                                      { x with
                                        menu := { s.menu with sums := set.foldl (addCandidateToSums gap) s.menu.sums } }) ∧
                                  (s.res.attempt = .gathering ∨ s.res.attempt = .closing →
                                    s.correlateHit th =
                                      State.hitDone
                                        { x with
                                          res :=
                                            set.foldl (fun r c => r.addCandidate s.corr.frame c)
                                              { s.res with gap := s.res.gap || gap } }) ∧
                                    (s.res.attempt = .held → s.correlateHit th = x.hitDone))) ∧
              ∀ (r : Resolver) (frame : Nat) (c : Candidate),
                (∀ before e after, r.tally = before ++ e :: after → e.key = c.key → (∀ d ∈ before, d.key ≠ c.key) →
                  r.addCandidate frame c =
                    { r with
                      tally :=
                        before
                          ++ { e with
                               score := min 65535 (e.score + c.weight), hits := min 255 (e.hits + 1)
                               framesSeen := if frame = e.lastFrame then e.framesSeen else min 15 (e.framesSeen + 1)
                               lastFrame := frame, lastPoint := c.point, lastElement := c.element, tag := c.tag
                               saturated := e.saturated || c.saturated }
                            :: after }) ∧
                  ((∀ e ∈ r.tally, e.key ≠ c.key) →
                    (r.tally.length < 8 →
                      r.addCandidate frame c =
                        { r with
                          tally :=
                            r.tally
                              ++ [{ key := c.key, cls := c.cls, priority := c.priority, route := c.route, tag := c.tag
                                    score := c.weight, hits := 1, framesSeen := 1, lastFrame := frame, lastPoint := c.point
                                    lastElement := c.element, saturated := c.saturated }] }) ∧
                      (8 ≤ r.tally.length → r.addCandidate frame c = { r with overflow := true }))

/-- The beam point lies within the rectangle of the stroke's endpoints; before the record's start it is the first endpoint, from its
end on the second, and between them the endpoint offsets in proportion, rounded half away from zero (R89). The beam point of a
cross-arm record is accumulated by its record's endpoints (R149, R150): its x on a horizontal arm, its y on a vertical one; a PARKED
cross and a record that is neither set it aside. -/
def Obligations.BeamPointLiesOnTheStroke : Prop :=
  (∀ (c : Cross) (p : Stroke) (q : ScreenPoint),
    (c.state = .parked ∨ (p.x0 = p.x1 ↔ p.y0 = p.y1) → c.armPoint p q = c) ∧
      (c.state ≠ .parked → p.y0 = p.y1 → p.x0 ≠ p.x1 →
        c.armPoint p q = { c with hSum := c.hSum + q.x, hCount := c.hCount + 1 }) ∧
        (c.state ≠ .parked → p.x0 = p.x1 → p.y0 ≠ p.y1 →
          c.armPoint p q = { c with vSum := c.vSum + q.y, vCount := c.vCount + 1 })) ∧
  ∀ (r : ReadStroke) (tc : Int), r.start < r.stop →
    (min r.stroke.x0.toNat r.stroke.x1.toNat ≤ (r.beamPoint tc).x ∧ (r.beamPoint tc).x ≤ max r.stroke.x0.toNat r.stroke.x1.toNat) ∧
      (min r.stroke.y0.toNat r.stroke.y1.toNat ≤ (r.beamPoint tc).y ∧ (r.beamPoint tc).y ≤ max r.stroke.y0.toNat r.stroke.y1.toNat) ∧
        (tc ≤ r.start → r.beamPoint tc = { x := r.stroke.x0.toNat, y := r.stroke.y0.toNat }) ∧
          ((r.stop : Int) ≤ tc → r.beamPoint tc = { x := r.stroke.x1.toNat, y := r.stroke.y1.toNat }) ∧
            ∀ c : Int, (r.start : Int) ≤ tc → tc ≤ r.stop → c = tc - r.start →
              ((r.beamPoint tc).x : Int) =
                  r.stroke.x0.toNat
                    + roundHalfAway (((r.stroke.x1.toNat : Int) - r.stroke.x0.toNat) * c) (r.stop - r.start) ∧
                ((r.beamPoint tc).y : Int) =
                  r.stroke.y0.toNat
                    + roundHalfAway (((r.stroke.y1.toNat : Int) - r.stroke.y0.toNat) * c) (r.stop - r.start)

/-! ## Decision -/

/-- The ranking of the tally (R111): the same entries, by priority, then score, the higher first, then segment, then element, the lower
first with ANY before element 0; the group holds those at the top priority. The decision (R112 to R115), in its order: POINT from the
tracking cross in POINT mode, unless a MENU leader meets threshold and margin; MISSED with NONE for an empty tally and with WEAK
below the threshold; AMBIGUOUS with the first four of the group where the margin is not met; else by class and mode. What each outcome
then does: its notice with the attempt's number, frames, flags and, where it has one, the primary part converted at that moment (R116,
R117), queued for its route, its counter, and its echo (R115, R118, R119). A MENU outcome withholds the notice of an item bound to another
action than NOTIFY without the notify flag, and runs the action of the binding in force last (R139, R96); for a segment without an entry,
which no run reaches, it sends the notice and runs none (log 30). An attempt lost carries its reason (R104 to R107). What follows an
outcome is read from the debounced tip and release seen (R103). -/
def Obligations.OutcomeIsDecidedInOrder : Prop :=
  (∀ (s : State) (bare : OutcomeKind → PickReason → PickNotice) (picked : TallyEntry → Picked)
    (full : OutcomeKind → PointSource → Option Picked → Bool → ScreenPoint → PickNotice),
    bare = (fun kind reason =>
      { kind := kind, attempt := s.res.number, frames := s.res.frames, reason := reason
        flags :=
          { gap := s.res.gap, overflow := s.res.overflow, withdrawn := s.res.withdrawn, elementSaturated := false
            saturated := false, snapped := false, dwell := false }
        primary := none, list := [] }) →
      picked = (fun e =>
        { seg := e.key.seg, whole := e.key.element.isNone, element := e.lastElement, saturated := e.saturated, tag := e.tag
          score := e.score, hits := e.hits, framesSeen := e.framesSeen }) →
        full = (fun kind source what saturated point =>
          { kind := kind, attempt := s.res.number, frames := s.res.frames, reason := .absent
            flags :=
              { gap := s.res.gap, overflow := s.res.overflow, withdrawn := s.res.withdrawn, elementSaturated := saturated
                saturated := (s.coord.convert point).saturated, snapped := (s.coord.convert point).snapped, dwell := false }
            primary :=
              some
                { source := source, picked := what, screen := point
                  loftX := (s.coord.convert point).x, loftY := (s.coord.convert point).y }
            list := [] }) →
          s.outcome .pointFromCross =
              (s.post s.res.modeOwner (.pick (full .point .cross none false { x := s.cross.x, y := s.cross.y }))).count .picks ∧
            s.outcome .missedNone = (s.post s.res.modeOwner (.pick (bare .missed .none))).count .missed ∧
            s.outcome .missedWeak = (s.post s.res.modeOwner (.pick (bare .missed .weak))).count .missed ∧
            (∀ (listed : List TallyEntry) (route : LinkSet) (x : PickNotice),
              (∀ n : Link, route.has n = true ↔ ∃ e ∈ listed, e.route.has n = true) →
                x.kind = .ambiguous → x.attempt = s.res.number → x.frames = s.res.frames → x.reason = .absent → x.primary = none →
                  x.flags = { (bare .ambiguous .absent).flags with elementSaturated := listed.any (fun e => e.saturated) } →
                    x.list =
                        listed.map (fun e =>
                          { seg := e.key.seg, whole := e.key.element.isNone, element := e.lastElement
                            saturated := e.saturated, tag := e.tag, score := e.score, priority := e.priority }) →
                      s.outcome (.ambiguous listed) = (s.post route (.pick x)).count .ambiguous) ∧
            (∀ e : TallyEntry,
              s.outcome (.pointFromLeader e) =
                  (s.post e.route (.pick (full .point .element (some (picked e)) e.saturated e.lastPoint))).count .picks ∧
                s.outcome (.menu e) =
                    s.menuOutcome e.key.seg e.route (full .menu .none (some (picked e)) e.saturated e.lastPoint) ∧
                ∀ z : State,
                  z = (s.post e.route (.pick (full .element .none (some (picked e)) e.saturated e.lastPoint))).count .picks →
                    s.outcome (.element e) =
                      { z with dir := { z.dir with echoes := addEcho z.dir.echoLength e.key.seg z.dir.echoes } }) ∧
            ∀ reason : PickReason,
              (s.res.attempt = .gathering ∨ s.res.attempt = .closing →
                s.loseAttempt reason =
                  State.afterOutcome ((s.post s.res.modeOwner (.pick (bare .lost reason))).count .lost)) ∧
                (s.res.attempt = .idle ∨ s.res.attempt = .held → s.loseAttempt reason = s)) ∧
  (∀ (s a z : State) (seg : Nat) (route : LinkSet) (x : PickNotice),
    ((∀ e b, s.entry seg = some e → e.binding = some b → b.action = .notify ∨ b.notify = true) → a = s.post route (.pick x)) →
      ((∃ e b, s.entry seg = some e ∧ e.binding = some b ∧ b.action ≠ .notify ∧ b.notify = false) → a = s) →
        z = { a with stats := a.stats.count .picks, dir := { a.dir with echoes := addEcho a.dir.echoLength seg a.dir.echoes } } →
          s.menuOutcome seg route x = z.runMenuAction seg) ∧
  (∀ (s : State) (seg : Nat),
    ((∀ e, s.entry seg = some e → e.binding = none) → s.runMenuAction seg = s) ∧
      ∀ (e : Entry) (b : Binding), s.entry seg = some e → e.binding = some b →
        (b.action = .notify → s.runMenuAction seg = s) ∧
          (∀ p, b.action = .page p → s.runMenuAction seg = s.stackOp (.push p)) ∧
            (b.action = .back → s.runMenuAction seg = s.stackOp .back) ∧
              (b.action = .home → s.runMenuAction seg = s.stackOp .home) ∧
                ∀ m, b.action = .mode m →
                  s.runMenuAction seg =
                    State.post { s with res := { s.res with mode := m, modeOwner := e.owner } } .both (.mode m e.owner)) ∧
  (∀ s e : State, e = { s with res := { s.res with tally := [], attempt := .idle } } →
    s.resolve = (s.outcome (decideOutcome s.res s.cross.state)).afterOutcome ∧
      (s.pen.tipDebounced = .up → s.afterOutcome = e) ∧
        (s.pen.tipDebounced = .down → s.res.releaseSeen = true → s.afterOutcome = e.tipDown) ∧
          (s.pen.tipDebounced = .down → s.res.releaseSeen = false →
            s.afterOutcome = { s with res := { s.res with tally := [], attempt := .held } })) ∧
  (∀ tally : List TallyEntry, (rank tally).Perm tally ∧
    (rank tally).Pairwise (fun a b =>
      b.priority < a.priority ∨ (a.priority = b.priority ∧
        (b.score < a.score ∨ (a.score = b.score ∧
          (a.key.seg < b.key.seg ∨ (a.key.seg = b.key.seg ∧ elementRank a.key.element ≤ elementRank b.key.element)))))) ∧
      ∀ leader rest, rank tally = leader :: rest →
        topGroup tally = (leader :: rest).filter (fun e => e.priority = leader.priority)) ∧
    ∀ (r : Resolver) (cross : CrossState) (leader : TallyEntry) (rest : List TallyEntry),
      (topGroup r.tally = [] →
        decideOutcome r cross = if r.mode = .point ∧ cross = .tracking then .pointFromCross else .missedNone) ∧
        (topGroup r.tally = leader :: rest →
          (r.mode = .point → cross = .tracking →
            ¬(leader.cls = .menu ∧ r.t ≤ leader.score ∧ ∀ second ∈ rest.head?, second.score + r.d ≤ leader.score) →
              decideOutcome r cross = .pointFromCross) ∧
            ((r.mode = .element ∨ cross ≠ .tracking ∨
                (leader.cls = .menu ∧ r.t ≤ leader.score ∧ ∀ second ∈ rest.head?, second.score + r.d ≤ leader.score)) →
              (leader.score < r.t → decideOutcome r cross = .missedWeak) ∧
                (r.t ≤ leader.score →
                  (∀ second more, rest = second :: more → leader.score < second.score + r.d →
                    decideOutcome r cross = .ambiguous ((leader :: rest).take 4)) ∧
                    ((∀ second ∈ rest.head?, second.score + r.d ≤ leader.score) →
                      (leader.cls = .menu → decideOutcome r cross = .menu leader) ∧
                        (leader.cls ≠ .menu → r.mode = .element → decideOutcome r cross = .element leader) ∧
                          (leader.cls ≠ .menu → r.mode = .point → decideOutcome r cross = .pointFromLeader leader)))))

/-! ## The links -/

/-- A receiver takes a character (R169, R170): one with its stop bit low is discarded; another is taken as MARK, HEAD, LEN, payload or
CHECK, and goes on, fails or completes the frame. -/
def Obligations.ReceiverFramesCharacters : Prop :=
  (∀ (b head len : Byte) (payload : List Byte) (g : Nat),
    (b ≠ 0xC3#8 → Receiver.take .hunting b = .goesOn .hunting) ∧
      Receiver.take .hunting 0xC3#8 = .goesOn (.receiving [] 0) ∧
        (b.getLsbD 7 ≠ b.getLsbD 6 → Receiver.take (.receiving [] g) b = .goesOn (.receiving [b] 0)) ∧
          (b.getLsbD 7 = b.getLsbD 6 →
            Receiver.take (.receiving [] g) b = if b = 0xC3#8 then .goesOn (.receiving [] 0) else .fails .sync) ∧
            (60 < b.toNat → Receiver.take (.receiving [head] g) b = .fails .length) ∧
              (b.toNat ≤ 60 → Receiver.take (.receiving [head] g) b = .goesOn (.receiving [head, b] 0)) ∧
                (payload.length < len.toNat →
                  Receiver.take (.receiving (head :: len :: payload) g) b =
                    .goesOn (.receiving (head :: len :: (payload ++ [b])) 0)) ∧
                  (payload.length = len.toNat →
                    Receiver.take (.receiving (head :: len :: payload) g) b =
                      if b = crc8 (head :: len :: payload) then
                        .completes { dir := head.getLsbD 6, mtype := head.extractLsb' 0 6, payload := payload }
                      else .fails .check)) ∧
    ∀ (dt : Nat) (n : Link) (b : Byte) (s u : State), u = s.advance dt →
      exec (.characterTaken dt n b false) s = .next u ∧
        (∀ rx, (u.unit n).rx.take b = .goesOn rx →
          exec (.characterTaken dt n b true) s = .next (u.setUnit n { u.unit n with rx := rx })) ∧
          (∀ reason, (u.unit n).rx.take b = .fails reason →
            exec (.characterTaken dt n b true) s = exec (.frameFailed dt n reason) s) ∧
            (∀ f, (u.unit n).rx.take b = .completes f → f.payload.length ≤ Config.payloadLimit →
              exec (.characterTaken dt n b true) s = exec (.linkFrameComplete dt n f.dir f.mtype f.payload) s)

/-- A frame completes (R172, R173): it waits behind a reply in a buffer with room, and at a full buffer it is dropped with FRAME_ERROR set and
no reply; taken at once, a type that names no command is answered UNKNOWN and a wrong length RANGE. A frame with direction 1, or of a type
other than 01h to 22h, names no command (R189); a length is wrong that differs from the LEN that 12.3 gives the type. A payload no frame
can carry fails with LENGTH instead. -/
def Obligations.CompleteFrameWaitsOrIsAnswered : Prop :=
  (∀ (f : Frame) (m : BitVec 6) (lens : List Nat),
    lens =
        [9, 9, 2, 2, 6, 2, 13, 3, 14, 1, 2, 1, 1, 0, 0, 1] ++ [4, 0, 3, 0, 4, 5, 0, 8, 1, 0, 12, 1, 2, 1, 0, 0, 1, 0] →
      (decodeFrame f = .unknown m ↔ m = f.mtype ∧ (f.dir = true ∨ f.mtype.toNat = 0 ∨ 0x22 < f.mtype.toNat)) ∧
        (decodeFrame f = .badLength m ↔
          m = f.mtype ∧ f.dir = false ∧ 1 ≤ f.mtype.toNat ∧ f.mtype.toNat ≤ 0x22 ∧
            lens[f.mtype.toNat - 1]? ≠ some f.payload.length)) ∧
  ∀ (dt : Nat) (n : Link) (f : Frame) (s u : State), u = s.advance dt →
    (Config.payloadLimit < f.payload.length →
      exec (.linkFrameComplete dt n f.dir f.mtype f.payload) s = exec (.frameFailed dt n .length) s) ∧
      (f.payload.length ≤ Config.payloadLimit →
        (Config.inboundSize ≤ (u.unit n).inbound.length →
          exec (.linkFrameComplete dt n f.dir f.mtype f.payload) s =
            .next ((u.setUnit n { u.unit n with rx := .hunting }).setFlag (.frameError n))) ∧
          ((u.unit n).inbound.length < Config.inboundSize → (u.unit n).slot ≠ none →
            exec (.linkFrameComplete dt n f.dir f.mtype f.payload) s =
              .next (u.setUnit n { u.unit n with rx := .hunting, inbound := (u.unit n).inbound ++ [f] })) ∧
            (u.Ready n →
              (∀ m, decodeFrame f = .unknown m →
                exec (.linkFrameComplete dt n f.dir f.mtype f.payload) s =
                  .next (u.replied n { mtype := m, code := .unknown, values := [] })) ∧
                (∀ m, decodeFrame f = .badLength m →
                  exec (.linkFrameComplete dt n f.dir f.mtype f.payload) s =
                    .next (u.replied n { mtype := m, code := .range, values := [] })))) ∧
        (f.payload = [] → exec (.unknownType dt n f.dir f.mtype) s = exec (.linkFrameComplete dt n f.dir f.mtype []) s) ∧
          (u.Ready n → (f.dir = true ∨ f.mtype.toNat = 0 ∨ 0x22 < f.mtype.toNat) →
            exec (.unknownType dt n f.dir f.mtype) s = .next (u.replied n { mtype := f.mtype, code := .unknown, values := [] }))

/-- A failed frame (R171): FRAME_ERROR is set, the receiver hunts, and a REJECT with the reason is placed in an empty reply slot and only
there; the flag is set first and the slot looked at then, so an idle transmitter begins the CONDITION before the REJECT, which is the
model's choice (log 15). A frame whose gap timer stands within its 50,000 ticks goes on, and fails with SHORT as they are exceeded (R170);
a hunting receiver has none, and GAP_TIMER_EXPIRY then changes nothing (log 3). -/
def Obligations.FailedFrameIsRejected : Prop :=
  (∀ (dt : Nat) (n : Link) (reason : FailReason) (s a : State),
    a = ((s.advance dt).setUnit n { (s.advance dt).unit n with rx := .hunting }).setFlag (.frameError n) →
      flagSet a.flags (.frameError n) = true ∧
        ((a.unit n).slot ≠ none → exec (.frameFailed dt n reason) s = .next a) ∧
          ((a.unit n).slot = none →
            exec (.frameFailed dt n reason) s =
              .next
                (a.placeReply n
                  { mtype := 0x00#6, code := .reject
                    values :=
                      [match reason with | .sync => 1#8 | .length => 2#8 | .check => 3#8 | .short => 4#8] }))) ∧
    ∀ (n : Link) (s : State),
      ((s.unit n).rx = .hunting → exec (.gapTimerExpiry n) s = .next s) ∧
        ∀ (bytes : List Byte) (g : Nat), (s.unit n).rx = .receiving bytes g → g ≤ 50000 →
          (∀ d, d ≤ 50000 - g → ((s.advance d).unit n).rx = .receiving bytes (g + d)) ∧
            ∃ t, exec (.gapTimerExpiry n) s = .next t ∧ t = s.advance (50001 - g) ∧ (t.unit n).rx = .hunting ∧
              flagSet t.flags (.frameError n) = true

/-- A transmitter finishes its frame (R174): it begins the reply in the slot, whereupon the next command is taken from the inbound buffer
(R173), or the failure named to come first has its REJECT (R171, log 7); or else the oldest notice; or else it is idle. -/
def Obligations.TransmissionEndBeginsTheNext : Prop :=
  ∀ (dt : Nat) (n : Link) (s u : State), u = s.advance dt →
    ((u.unit n).tx = none → ∀ fail, exec (.transmissionEnd dt n fail) s = .next u) ∧
      ((u.unit n).tx ≠ none → (u.unit n).busy = false →
        (∀ (r : Reply) (a : State), (u.unit n).slot = some r →
          a = u.setUnit n { u.unit n with tx := some (.reply r), slot := none } →
            ((u.unit n).inbound = [] → exec (.transmissionEnd dt n none) s = .next a) ∧
              (∀ f rest, (u.unit n).inbound = f :: rest →
                exec (.transmissionEnd dt n none) s =
                  .next ((a.setUnit n { a.unit n with inbound := rest }).takeFrame n f)) ∧
                (∀ reason, exec (.transmissionEnd dt n (some reason)) s = .next (a.failFrame n reason))) ∧
          ((u.unit n).slot = none → (u.unit n).inbound = [] →
            (∀ q rest, (u.unit n).queue = q :: rest →
              exec (.transmissionEnd dt n none) s =
                .next (u.setUnit n { u.unit n with tx := some (.notice q), queue := rest })) ∧
              ((u.unit n).queue = [] →
                exec (.transmissionEnd dt n none) s = .next (u.setUnit n { u.unit n with tx := none }))))

/-! ## The commands of the links: on a link whose reply slot and inbound buffer are empty -/

/-- CROSS_READ, STATUS_READ and IDENT are answered OK with what they report, in the codes of R192, and change nothing (R156, R182, R183). -/
def Obligations.ReadCommandsReport : Prop :=
  (∀ (mode : PortMode) (resync : Bool) (a : AttemptState) (m : PickMode) (c : CrossState) (l : TipLevel) (r : LineRate),
    portStateCode mode resync =
        (match mode with | .dark => 0 | .inFrame => if resync then 2 else 1 | .between => 3) ∧
      a.code = (match a with | .idle => 0 | .gathering => 1 | .closing => 2 | .held => 3) ∧
        m.code = (match m with | .element => 0 | .point => 1) ∧
          c.code = (match c with | .parked => 0 | .tracking => 1 | .lost => 2) ∧
            tipCode l = (match l with | .up => 0 | .down => 1) ∧
              rateCode r = (match r with | .r9600 => 0 | .r19200 => 1 | .r38400 => 2 | .r76800 => 3)) ∧
  ∀ (dt : Nat) (n : Link) (s u : State), u = s.advance dt → u.Ready n →
      exec (.crossRead dt n) s =
          .next
            (u.replied n
              { mtype := 0x14#6, code := .ok
                values :=
                  [byteOf u.cross.state.code] ++ wordBytes u.cross.x ++ wordBytes u.cross.y ++ [byteOf u.cross.miss]
                    ++ wordBytes u.cross.slew ++ [byteOf u.cross.k] }) ∧
        exec (.statusRead dt n) s =
            .next
              (u.replied n
                { mtype := 0x1F#6, code := .ok
                  values :=
                    [byteOf (portStateCode u.port.mode u.port.resync), byteOf u.res.attempt.code, byteOf u.res.mode.code,
                      byteOf u.res.modeOwner.code, byteOf u.cross.state.code, boolByte u.pen.muted,
                      byteOf (tipCode u.pen.tipRaw), byteOf (tipCode u.pen.tipDebounced)]
                      ++ flagBytes u.flags ++ [byteOf u.dir.changes.length, byteOf u.res.tally.length] }) ∧
          exec (.ident dt n) s =
            .next
              (u.replied n
                { mtype := 0x20#6, code := .ok
                  values := [0x54#8] ++ wordBytes 418 ++ [0x42#8, byteOf (rateCode u.links.rate)] })

/-- A counter's cause raises the counter named by one, no further than 65535, and leaves the other twelve and all else (R181). FILTER_READ
reports the counts and the entry at the index if one stands there (R131, R192). SEG_QUERY reports the entry in force, with the free values
for a FREE segment (R21, R35), and whether a change or a sweep for it is pending; a number of 1023 or more is refused. STATS_READ reports
the counters and, with the clear option, zeroes them in the same act (R181). Nothing else changes. The codes are those of 12.3, the bytes
of what is absent those of log 18. -/
def Obligations.QueryAndStatisticsReport : Prop :=
  (∀ (v : Nat) (s : State) (c : Counter), countUp v = min 65535 (v + 1) ∧ s.count c = { s with stats := s.stats.count c }) ∧
    (∀ (st : Stats) (c : Counter) (up : Nat → Nat), up = (fun v => min 65535 (v + 1)) →
      st.count c =
        (match c with
          | .frames => { st with frames := up st.frames }
          | .vectors => { st with vectors := up st.vectors }
          | .intakeDrops => { st with intakeDrops := up st.intakeDrops }
          | .hits => { st with hits := up st.hits }
          | .narrow => { st with narrow := up st.narrow }
          | .dead => { st with dead := up st.dead }
          | .unmatched => { st with unmatched := up st.unmatched }
          | .discarded => { st with discarded := up st.discarded }
          | .attempts => { st with attempts := up st.attempts }
          | .picks => { st with picks := up st.picks }
          | .ambiguous => { st with ambiguous := up st.ambiguous }
          | .missed => { st with missed := up st.missed }
          | .lost => { st with lost := up st.lost })) ∧
    (∀ (a : LinkSet) (c : SegClass) (h : Highlight) (b : BoundPage) (m : MenuAction) (f : FilterAction),
      a.code = (if a.l0 then 1 else 0) + (if a.l1 then 2 else 0) ∧
        c.code = (match c with | .drawing => 0 | .menu => 1 | .mark => 2) ∧
          h.code = (match h with | .none => 0 | .bright => 1 | .blink => 2 | .dash => 3) ∧
            b.code = (match b with | .page p => p.val | .all => 15) ∧
              (m.code, m.target) =
                  (match m with
                    | .notify => (0, 0)
                    | .page p => (1, p.val)
                    | .back => (2, 0)
                    | .home => (3, 0)
                    | .mode .element => (4, 0)
                    | .mode .point => (4, 1)) ∧
                (f.code, f.arg) =
                  (match f with | .reject => (0, 0) | .priority p => (1, p.val) | .route s => (2, s.code))) ∧
    Stats.zero.values = List.replicate 13 0 ∧
  ∀ (dt : Nat) (n : Link) (s u : State), u = s.advance dt → u.Ready n →
    (∀ index : Byte,
      exec (.filterRead dt n index) s =
        .next
          (u.replied n
            { mtype := 0x0C#6, code := .ok
              values :=
                [byteOf u.filt.entries.length, u.filt.editCount]
                  ++ (match u.filt.entries[index.toNat]? with
                      | none => [0#8]
                      | some e =>
                        [1#8, byteOf (linkNumber e.author), boolByte e.enabled,
                          byteOf ((if e.matchDrawing then 1 else 0) + (if e.matchMenu then 2 else 0))]
                          ++ wordBytes e.segLow ++ wordBytes e.segHigh ++ bytes16 e.tagValue ++ bytes16 e.tagMask
                          ++ [byteOf e.action.code, byteOf e.action.arg, boolByte e.final]) })) ∧
    (∀ (seg : Word) (owner : LinkSet) (pending : Bool),
      (1023 ≤ seg.toNat →
        exec (.segQuery dt n seg) s = .next (u.replied n { mtype := 0x06#6, code := .range, values := [] })) ∧
        (seg.toNat < 1023 → owner = ownerOf (u.entry seg.toNat) →
          pending = (u.dir.changes.any (fun c => c.op.seg == some seg.toNat) || owner.meets u.dir.sweeps) →
            exec (.segQuery dt n seg) s =
              .next
                (u.replied n
                  { mtype := 0x06#6, code := .ok
                    values :=
                      (match u.entry seg.toNat with
                        | none => [0, 0, 0, 0, 0, 0, 0, 0, 0, 0xFF, 0, 0, 0]
                        | some e =>
                          [1#8, byteOf e.owner.code, byteOf e.cls.code] ++ bytes16 e.tag
                            ++ [byteOf ((if e.visible then 1 else 0) + (if e.detectable then 2 else 0)
                                  + (if e.granularity = .element then 8 else 0)),
                                byteOf e.intensity.val, byteOf e.highlight.code, byteOf e.priority.val]
                            ++ (match e.binding with
                                | none => [0xFF#8, 0#8, 0#8, 0#8]
                                | some b => [byteOf b.page.code, byteOf b.action.code, byteOf b.action.target, boolByte b.notify]))
                        ++ [boolByte pending] }))) ∧
      ∀ clear : Byte,
        exec (.statsRead dt n clear) s =
          .next
            (State.replied { u with stats := if clear.getLsbD 0 then Stats.zero else u.stats } n
              { mtype := 0x1E#6, code := .ok
                values :=
                  [u.stats.frames, u.stats.vectors, u.stats.intakeDrops, u.stats.hits, u.stats.narrow, u.stats.dead,
                    u.stats.unmatched, u.stats.discarded, u.stats.attempts, u.stats.picks, u.stats.ambiguous,
                    u.stats.missed, u.stats.lost].flatMap wordBytes })

/-- The six change commands (R27, R36, R41): refused with RANGE by check 1, with DENIED or STATE by the checks against the projected
directory, with FULL at 48 staged changes, and then changing nothing; else, in a frame or between frames, staged at the list's tail, and
while DARK applied at once with the list left empty of it, the withdrawn set begun anew and handed on (R21, R110, R144); answered with the
next frame's number, CLAMPED where a value was. -/
def Obligations.ChangeCommandIsCheckedAndStaged : Prop :=
  ∀ (dt : Nat) (n : Link) (c : LinkCmd) (s u : State), u = s.advance dt → u.Ready n → isChange c = true →
    (changeOf u.dir.projected c = none →
      exec (linkInstr dt n c) s = .next (u.replied n { mtype := c.mtype, code := .range, values := [] })) ∧
      ∀ (op : ChangeOp) (clamped : Bool) (done : Reply), changeOf u.dir.projected c = some (op, clamped) →
        done = { mtype := c.mtype, code := if clamped then .clamped else .ok, values := [u.port.lastSeq + 1] } →
          (∀ code, op.refusal n u.dir.projected = some code →
            exec (linkInstr dt n c) s = .next (u.replied n { mtype := c.mtype, code := code, values := [] })) ∧
            (op.refusal n u.dir.projected = none →
              (u.port.mode ≠ .dark → 48 ≤ u.dir.changes.length →
                exec (linkInstr dt n c) s = .next (u.replied n { mtype := c.mtype, code := .full, values := [] })) ∧
                (u.port.mode ≠ .dark → u.dir.changes.length < 48 →
                  exec (linkInstr dt n c) s =
                    .next
                      (State.replied
                        { u with dir := { u.dir with changes := u.dir.changes ++ [{ issuer := n, op := op }] } } n done)) ∧
                  (u.port.mode = .dark →
                    ∃ t, exec (linkInstr dt n c) s = .next t ∧ answered u t n done ∧
                      t = u.carriedOut n
                            (fun a =>
                              (State.applyChange { a with dir := { a.dir with withdrawn := [] } }
                                { issuer := n, op := op }).handWithdrawn false)
                            done ∧
                      t.dir.entries = op.apply n u.dir.entries ∧ t.dir.changes = u.dir.changes ∧
                        t.dir.sweeps = u.dir.sweeps ∧ t.unit (otherLink n) = u.unit (otherLink n) ∧
                          t.coord = (match op with | .view v => { u.coord with view := v } | _ => u.coord) ∧
                            t = { u with dir := t.dir, coord := t.coord, res := t.res, menu := t.menu, links := t.links }))

/-- Checks 2 and 3 of R27: only an owner may change a segment; a segment DEFINED is not defined again, nor one of both links shared again,
nor one that is no MENU bound; VIEW_SET is never refused. A release sweep (R43) takes the link out of every owner set: a segment of that
link alone is FREE, another keeps its fields with the other owner. An applied change alters the segment it names alone, and stores in it
what its command's rule gives: the definition (R29), the attributes named (R30), both owners (R31), the other owner or FREE (R32), the
binding or none (R33); a VIEW_SET sets the view alone (R34). A segment that becomes FREE loses its echo and joins the withdrawn set, as
does one that becomes DEFINED (R21, R39). Staged work is the sweeps and then the list in order, each change checked again and applied, or
skipped with the flag and a SKIPPED notice to its issuer (R37, R38). That the priority is held at 0 by the class the entry has at
application, MENU or MARK (2.1), beside the class at staging (R28), is the model's choice (log 26). -/
def Obligations.OwnershipDecidesChanges : Prop :=
  (∀ (n : Link) (d : Dir) (seg : Nat) (owner : LinkSet), owner = ownerOf (Dir.find d seg) →
    (∀ v, (ChangeOp.define seg v).refusal n d =
      if Dir.find d seg = none then none else if owner.has n then some .state else some .denied) ∧
      (∀ v, (ChangeOp.set seg v).refusal n d = if owner.has n then none else some .denied) ∧
        (ChangeOp.share seg).refusal n d =
            (if owner.has n then (if owner = .both then some .state else none) else some .denied) ∧
          (ChangeOp.release seg).refusal n d = (if owner.has n then none else some .denied) ∧
            (∀ b e, Dir.find d seg = some e →
              (ChangeOp.menu seg b).refusal n d =
                if owner.has n then (if e.cls = .menu then none else some .state) else some .denied) ∧
              (∀ b, Dir.find d seg = none → (ChangeOp.menu seg b).refusal n d = some .denied) ∧
                ∀ v, (ChangeOp.view v).refusal n d = none) ∧
    (∀ (n : Link) (d : Dir) (seg : Nat), Dir.wf d = true →
      Dir.find (Dir.sweep n d) seg =
        (match Dir.find d seg with
          | none => none
          | some e => if e.owner = .single n then none else some { e with owner := e.owner.diff (.single n) })) ∧
      (∀ (n : Link) (d : Dir) (op : ChangeOp) (k : Nat), Dir.wf d = true → op.seg ≠ some k →
        Dir.find (op.apply n d) k = Dir.find d k) ∧
    (∀ (n : Link) (d : Dir) (seg : Nat), Dir.wf d = true →
      (∀ v : DefineValues,
        Dir.find ((ChangeOp.define seg v).apply n d) seg =
          some
            { owner := if v.share then .both else .single n, cls := v.cls, tag := v.tag, visible := v.visible
              detectable := v.detectable, intensity := v.intensity, highlight := v.highlight
              priority := if v.cls = .drawing then v.priority else 0, granularity := v.granularity, binding := none }) ∧
        (∀ e : Entry, Dir.find d seg = some e →
          (∀ v : SetValues,
            Dir.find ((ChangeOp.set seg v).apply n d) seg =
              some
                { owner := e.owner, cls := e.cls, tag := v.tag.getD e.tag, visible := v.visible.getD e.visible
                  detectable := v.detectable.getD e.detectable, intensity := v.intensity.getD e.intensity
                  highlight := v.highlight.getD e.highlight
                  priority := if e.cls = .drawing then v.priority.getD e.priority else 0
                  granularity := v.granularity.getD e.granularity, binding := e.binding }) ∧
            Dir.find ((ChangeOp.share seg).apply n d) seg = some { e with owner := .both } ∧
              (e.owner = .single n → Dir.find ((ChangeOp.release seg).apply n d) seg = none) ∧
                (e.owner = .both →
                  Dir.find ((ChangeOp.release seg).apply n d) seg = some { e with owner := .single (otherLink n) }) ∧
                  ∀ b, Dir.find ((ChangeOp.menu seg b).apply n d) seg = some { e with binding := b }) ∧
          ∀ v, (ChangeOp.view v).apply n d = d) ∧
    (∀ (s : State) (c : Change) (d : Dir), d = c.op.apply c.issuer s.dir.entries →
      (∀ seg v, c.op = .define seg v →
        s.applyChange c =
          { s with
            dir :=
              { s.dir with
                entries := d, withdrawn := if seg ∈ s.dir.withdrawn then s.dir.withdrawn else s.dir.withdrawn ++ [seg] } }) ∧
        (∀ seg, c.op = .release seg → ownerOf (Dir.find s.dir.entries seg) = .single c.issuer →
          s.applyChange c =
            { s with
              dir :=
                { s.dir with
                  entries := d, echoes := s.dir.echoes.filter (fun e => e.seg ≠ seg)
                  withdrawn := if seg ∈ s.dir.withdrawn then s.dir.withdrawn else s.dir.withdrawn ++ [seg] } }) ∧
          (∀ seg, (∃ v, c.op = .set seg v) ∨ c.op = .share seg ∨ (∃ b, c.op = .menu seg b) ∨
              (c.op = .release seg ∧ ownerOf (Dir.find s.dir.entries seg) ≠ .single c.issuer) →
            s.applyChange c = { s with dir := { s.dir with entries := d } }) ∧
            ∀ v, c.op = .view v → s.applyChange c = { s with coord := { s.coord with view := v } }) ∧
    (∀ (s : State) (n : Link), Dir.wf s.dir.entries = true →
      s.applySweep n =
          { s with
            dir :=
              { s.dir with
                entries := Dir.sweep n s.dir.entries
                echoes := s.dir.echoes.filter (fun e => ownerOf (Dir.find s.dir.entries e.seg) ≠ .single n)
                withdrawn := (s.applySweep n).dir.withdrawn } } ∧
        ∀ k, k ∈ (s.applySweep n).dir.withdrawn ↔
          k ∈ s.dir.withdrawn ∨ ownerOf (Dir.find s.dir.entries k) = .single n) ∧
    (∀ (s : State) (c : Change),
      (c.op.refusal c.issuer s.dir.entries = none → s.applyListed c = s.applyChange c) ∧
        ∀ reason, c.op.refusal c.issuer s.dir.entries = some reason →
          s.applyListed c =
            (s.setFlag .changeSkipped).post (.single c.issuer) (.skipped reason c.op.mtype c.op.seg s.port.lastSeq)) ∧
    ∀ s a b c : State, a = { s with dir := { s.dir with withdrawn := [], sweeps := .none, changes := [] } } →
      b = (if s.dir.sweeps.l0 then a.applySweep .link0 else a) → c = (if s.dir.sweeps.l1 then b.applySweep .link1 else b) →
        s.applyStaged = s.dir.changes.foldl State.applyListed c

/-- The filter edits (R128, R129, R130): FILTER_INSERT refuses a malformed entry with RANGE and a full list with FULL, else places the
entry, authored by the issuer, at its index or at the tail; FILTER_DELETE and FILTER_ENABLE refuse with STATE where no entry stands and
with DENIED the other link's entry, else remove it or set its enabled field; each edit made counts, and nothing else changes. -/
def Obligations.FilterEdits : Prop :=
  ∀ (dt : Nat) (n : Link) (s u : State), u = s.advance dt → u.Ready n →
    (∀ (a : FilterInsertArgs) (i : Nat),
      (filterActionOf a.action a.arg = none ∨ (a.classMatch.getLsbD 0 = false ∧ a.classMatch.getLsbD 1 = false) ∨
          1022 < a.segLow.toNat ∨ 1022 < a.segHigh.toNat ∨ a.segHigh.toNat < a.segLow.toNat →
        exec (.filterInsert dt n a) s = .next (u.replied n { mtype := 0x09#6, code := .range, values := [] })) ∧
        (∀ action, filterActionOf a.action a.arg = some action →
          (a.classMatch.getLsbD 0 = true ∨ a.classMatch.getLsbD 1 = true) → a.segLow.toNat ≤ a.segHigh.toNat →
            a.segHigh.toNat ≤ 1022 →
              (32 ≤ u.filt.entries.length →
                exec (.filterInsert dt n a) s = .next (u.replied n { mtype := 0x09#6, code := .full, values := [] })) ∧
                (u.filt.entries.length < 32 → i = min a.index.toNat u.filt.entries.length →
                  exec (.filterInsert dt n a) s =
                    .next
                      (State.replied
                        { u with
                          filt :=
                            { entries :=
                                u.filt.entries.take i
                                  ++ { author := n, enabled := a.enabled.getLsbD 0, matchDrawing := a.classMatch.getLsbD 0
                                       matchMenu := a.classMatch.getLsbD 1, segLow := a.segLow.toNat
                                       segHigh := a.segHigh.toNat, tagValue := a.tagValue, tagMask := a.tagMask
                                       action := action, final := a.final.getLsbD 0 }
                                    :: u.filt.entries.drop i
                              editCount := u.filt.editCount + 1 } }
                        n
                        { mtype := 0x09#6
                          code := if a.action = 1 ∧ 7 < a.arg.toNat then .clamped else .ok
                          values := [byteOf i, u.filt.editCount + 1] })))) ∧
      ∀ index enabled : Byte,
        (u.filt.entries.length ≤ index.toNat →
          exec (.filterDelete dt n index) s = .next (u.replied n { mtype := 0x0A#6, code := .state, values := [] }) ∧
            exec (.filterEnable dt n index enabled) s = .next (u.replied n { mtype := 0x0B#6, code := .state, values := [] })) ∧
          ∀ e, u.filt.entries[index.toNat]? = some e →
            (e.author ≠ n →
              exec (.filterDelete dt n index) s = .next (u.replied n { mtype := 0x0A#6, code := .denied, values := [] }) ∧
                exec (.filterEnable dt n index enabled) s =
                  .next (u.replied n { mtype := 0x0B#6, code := .denied, values := [] })) ∧
              (e.author = n →
                exec (.filterDelete dt n index) s =
                    .next
                      (State.replied
                        { u with
                          filt := { entries := u.filt.entries.eraseIdx index.toNat, editCount := u.filt.editCount + 1 } }
                        n { mtype := 0x0A#6, code := .ok, values := [u.filt.editCount + 1] }) ∧
                  exec (.filterEnable dt n index enabled) s =
                    .next
                      (State.replied
                        { u with
                          filt :=
                            { entries := u.filt.entries.set index.toNat { e with enabled := enabled.getLsbD 0 }
                              editCount := u.filt.editCount + 1 } }
                        n { mtype := 0x0B#6, code := .ok, values := [u.filt.editCount + 1] }))

/-- The walk of a candidate over the list (R124, R125, R126): an entry that does not match is passed over; a REJECT ends it; a PRIORITY or a
ROUTE takes the place of what stood, and ends the walk where it is final; an entry matches when it is enabled, its author owns the
segment, and class, range and tag agree. -/
def Obligations.FilterWalk : Prop :=
  (∀ (e : FilterEntry) (p : Presented),
    e.matchesCandidate p = true ↔
      e.enabled = true ∧ p.owner.has e.author = true ∧
        ((p.cls = .drawing ∧ e.matchDrawing = true) ∨ (p.cls = .menu ∧ e.matchMenu = true)) ∧
          e.segLow ≤ p.seg ∧ p.seg ≤ e.segHigh ∧
            ∀ i < 16, e.tagMask.getLsbD i = true → p.tag.getLsbD i = e.tagValue.getLsbD i) ∧
    ∀ (e : FilterEntry) (rest : List FilterEntry) (p : Presented) (priority : Fin 8) (route : LinkSet),
      walk p [] priority route = .stands priority route ∧
        (e.matchesCandidate p = false → walk p (e :: rest) priority route = walk p rest priority route) ∧
          (e.matchesCandidate p = true →
            (e.action = .reject → walk p (e :: rest) priority route = .rejected) ∧
              (∀ q, e.action = .priority q →
                walk p (e :: rest) priority route = if e.final then .stands q route else walk p rest q route) ∧
                ∀ r, e.action = .route r →
                  walk p (e :: rest) priority route = if e.final then .stands priority r else walk p rest priority r)

/-- The page commands (R134, R135, R137, R138): push, back and home act on the next stack, a push onto eight pages losing the bottom one;
while DARK the current stack follows at once, with a PAGE notice for both links when the current page changes; the reply carries the
next stack's top page and depth. PAGE_PUSH of a page above 14 is refused. A menu action's
operation acts in the same way (R139), and the copy at a frame start and at the entry into DARK tells both links of a changed current page
and empties the frame sums; the entry into DARK also clears the leading item and the count, and keeps the latch (R136, R144). -/
def Obligations.PageCommandsTurnPages : Prop :=
  (∀ (s t : State) (op : StackOp) (stack : List (Fin 15)),
    ((∃ p, op = .push p ∧ stack = p :: (if s.menu.next.length < 8 then s.menu.next else s.menu.next.take 7)) ∨
        (op = .back ∧ stack = s.menu.next.tail) ∨ (op = .home ∧ stack = [])) → s.menu.next.length ≤ 8 →
      t = { s with menu := { s.menu with next := stack } } →
        (s.port.mode ≠ .dark → s.stackOp op = t) ∧ (s.port.mode = .dark → s.stackOp op = t.copyStack)) ∧
  (∀ s t z : State, t = { s with menu := { s.menu with current := s.menu.next } } →
    (topPage s.menu.next = s.currentPage → z = t) →
      (topPage s.menu.next ≠ s.currentPage →
          z = t.post .both (.page (topPage s.menu.next) s.menu.next.length s.port.lastSeq)) →
        s.copyStack = z ∧ s.menuFrameStart = { z with menu := { z.menu with sums := [] } } ∧
          s.menuDark = { z with menu := { z.menu with sums := [], leading := none, dwellCount := 0 } }) ∧
  ∀ (dt : Nat) (n : Link) (s u : State), u = s.advance dt → u.Ready n →
    (∀ page : Byte, 15 ≤ page.toNat →
      exec (.pagePush dt n page) s = .next (u.replied n { mtype := 0x0D#6, code := .range, values := [] })) ∧
      ∀ (c : Instr) (mtype : BitVec 6) (stack : List (Fin 15)) (r : Reply),
        ((∃ (page : Byte) (p : Fin 15), page.toNat = p.val ∧ c = .pagePush dt n page ∧ mtype = 0x0D#6 ∧
              stack = p :: (if u.menu.next.length < 8 then u.menu.next else u.menu.next.take 7)) ∨
            (c = .pageBack dt n ∧ mtype = 0x0E#6 ∧ stack = u.menu.next.tail) ∨
              (c = .pageHome dt n ∧ mtype = 0x0F#6 ∧ stack = [])) →
          r = { mtype := mtype, code := .ok, values := [byteOf (topPage stack).val, byteOf stack.length] } →
            (u.port.mode ≠ .dark → exec c s = .next (State.replied { u with menu := { u.menu with next := stack } } n r)) ∧
              (u.port.mode = .dark →
                (topPage stack = u.currentPage →
                  exec c s = .next (State.replied { u with menu := { u.menu with next := stack, current := stack } } n r)) ∧
                  ∃ t, exec c s = .next t ∧ answered u t n r ∧
                    t = { u with menu := { u.menu with next := stack, current := stack }, links := t.links, flags := t.flags } ∧
                      (topPage stack ≠ u.currentPage →
                        toldBoth u t n (.page (topPage stack) stack.length u.port.lastSeq)))

/-- The seven settings commands (R19, R45, R74, R92, R120, R145, R155, R166, R180): each value is stored clamped to its range, the reply is
CLAMPED where one was, the other link is offered a SETTINGS notice with the stored values, and nothing else changes, but for what the
rules name: the hold line and the absence timer (PORT_PARAMS), a debounce time already run, whose tip event is taken (PEN_PARAMS, R71,
R72), and the release test with the new L and W (PICK_PARAMS, R78). That the SETTINGS notice follows these is the model's choice (log 16).
A style that names none refuses ECHO_SET with RANGE. -/
def Obligations.SettingsAreStoredClamped : Prop :=
  ∀ (dt : Nat) (n : Link) (s u : State), u = s.advance dt → u.Ready n →
    (∀ (a : PortParamsArgs) (h lw ta : Nat), h = max 2 (min a.h.toNat 16) → lw = min a.lw.toNat (h - 1) →
      ta = max 10 (min a.ta.toNat 1000) →
        ∃ t, exec (.portParams dt n a) s = .next t ∧
          t = { u with
                port :=
                  { u.port with
                    h := h, lw := lw, ta := ta, absence := 0
                    hold :=
                      if h ≤ u.port.fifo.length then true else if u.port.fifo.length ≤ lw then false else u.port.hold }
                links := t.links, flags := t.flags } ∧
            answered u t n
              { mtype := 0x15#6, values := []
                code := if a.h.toNat = h ∧ a.lw.toNat = lw ∧ a.ta.toNat = ta then .ok else .clamped } ∧
              told u t (otherLink n) (.settings .portParams ([byteOf h, byteOf lw] ++ wordBytes ta))) ∧
      (∀ (a : PenParamsArgs) (wmin dd f tb : Nat) (r : Reply), wmin = max 1 (min a.wmin.toNat 15) → dd = min a.dd.toNat 255 →
        f = max 1 a.f.toNat → tb = max 1 (min a.tb.toNat 31) →
          r = { mtype := 0x16#6, values := []
                code :=
                  if a.wmin.toNat = wmin ∧ a.dd.toNat = dd ∧ a.f.toNat = f ∧ a.tb.toNat = tb then .ok else .clamped } →
            ∃ t, exec (.penParams dt n a) s = .next t ∧ answered u t n r ∧
              ((tb = u.pen.tb ∨ ∀ e, u.pen.tipTimer = some e → e < tb * Config.ticksPerMs) →
                t = { u with pen := { u.pen with wmin := wmin, dd := dd, f := f, tb := tb }, links := t.links, flags := t.flags } ∧
                  told u t (otherLink n)
                    (.settings .penParams ([byteOf wmin] ++ wordBytes dd ++ [byteOf f, byteOf tb]))) ∧
                (∀ (e : Nat) (tip : State → State), tb ≠ u.pen.tb → u.pen.tipTimer = some e → tb * Config.ticksPerMs ≤ e →
                  tip =
                      (match u.pen.tipDebounced, u.pen.tipRaw with
                        | .up, .down => State.tipDown
                        | .down, .up => State.tipUp
                        | _, _ => id) →
                    t = u.carriedOut n
                        (fun x =>
                          (tip
                            { x with
                              pen :=
                                { x.pen with
                                  wmin := wmin, dd := dd, f := f, tb := tb, tipDebounced := u.pen.tipRaw
                                  tipTimer := none } }).post
                            (.single (otherLink n))
                            (.settings .penParams ([byteOf wmin] ++ wordBytes dd ++ [byteOf f, byteOf tb])))
                        r ∧
                  t.pen =
                    { u.pen with
                      wmin := wmin, dd := dd, f := f, tb := tb, tipDebounced := u.pen.tipRaw, tipTimer := none })) ∧
        (∀ (a : PickParamsArgs) (l w m v : Nat) (r : Reply), l = min a.l.toNat 255 → w = min a.w.toNat 63 →
          m = max 1 (min a.n.toNat 15) → v = max 1 a.t.toNat →
            r = { mtype := 0x18#6, values := []
                  code := if a.l.toNat = l ∧ a.w.toNat = w ∧ a.n.toNat = m ∧ a.t.toNat = v then .ok else .clamped } →
              ∃ t, exec (.pickParams dt n a) s = .next t ∧ answered u t n r ∧
                t = u.carriedOut n
                      (fun x =>
                        (State.releaseTest
                          { x with
                            corr := { x.corr with l := l, w := w }
                            res := { x.res with n := m, t := v, d := a.d.toNat } }).post
                          (.single (otherLink n))
                          (.settings .pickParams
                            (wordBytes l ++ [byteOf w, byteOf m] ++ wordBytes v ++ wordBytes a.d.toNat)))
                      r ∧
                (t.corr.l, t.corr.w, t.res.n, t.res.t, t.res.d) = (l, w, m, v, a.d.toNat) ∧
                  (u.pen.waiting = [] →
                    t = { u with
                          corr := { u.corr with l := l, w := w }, res := { u.res with n := m, t := v, d := a.d.toNat }
                          links := t.links, flags := t.flags } ∧
                      told u t (otherLink n)
                        (.settings .pickParams
                          (wordBytes l ++ [byteOf w, byteOf m] ++ wordBytes v ++ wordBytes a.d.toNat)))) ∧
          (∀ (slew : Word) (k : Byte) (v m : Nat), v = min slew.toNat 255 → m = max 1 (min k.toNat 63) →
            ∃ t, exec (.crossParams dt n slew k) s = .next t ∧
              t = { u with cross := { u.cross with slew := v, k := m }, links := t.links, flags := t.flags } ∧
                answered u t n
                  { mtype := 0x13#6, code := if slew.toNat = v ∧ k.toNat = m then .ok else .clamped, values := [] } ∧
                  told u t (otherLink n) (.settings .crossParams (wordBytes v ++ [byteOf m]))) ∧
            (∀ (e : Word) (style : Byte) (v : Nat), v = min e.toNat 255 →
              (echoStyleOf style = none →
                exec (.echoSet dt n e style) s = .next (u.replied n { mtype := 0x08#6, code := .range, values := [] })) ∧
                ∀ st, echoStyleOf style = some st →
                  ∃ t, exec (.echoSet dt n e style) s = .next t ∧
                    t = { u with dir := { u.dir with echoLength := v, echoStyle := st }, links := t.links, flags := t.flags } ∧
                      answered u t n { mtype := 0x08#6, code := if e.toNat = v then .ok else .clamped, values := [] } ∧
                        told u t (otherLink n) (.settings .echoSet (wordBytes v ++ [style]))) ∧
              (∀ (dw : Byte) (v : Nat), v = (if dw.toNat = 0 then 0 else max 2 (min dw.toNat 60)) →
                ∃ t, exec (.dwellSet dt n dw) s = .next t ∧
                  t = { u with menu := { u.menu with dw := v }, links := t.links, flags := t.flags } ∧
                    answered u t n { mtype := 0x10#6, code := if dw.toNat = v then .ok else .clamped, values := [] } ∧
                      told u t (otherLink n) (.settings .dwellSet [byteOf v])) ∧
                ∀ a : SnapSetArgs,
                  ∃ t, exec (.snapSet dt n a) s = .next t ∧
                    t = { u with
                          coord := { u.coord with px := a.px, py := a.py, gx := a.gx, gy := a.gy }
                          links := t.links, flags := t.flags } ∧
                      answered u t n
                        { mtype := 0x1B#6, code := .ok
                          values := bytes16 a.px ++ bytes16 a.py ++ bytes32 a.gx ++ bytes32 a.gy } ∧
                        told u t (otherLink n)
                          (.settings .snapSet (bytes16 a.px ++ bytes16 a.py ++ bytes32 a.gx ++ bytes32 a.gy))

/-- CROSS_PLACE and CROSS_PARK (R153, R154, R157): the cross is LOST at the clamped position with miss count K, or PARKED where it stood
with miss count 0, its accumulators emptied; a change of state is told to both links, and nothing else changes. -/
def Obligations.CrossIsPlacedAndParked : Prop :=
  ∀ (dt : Nat) (n : Link) (s u : State), u = s.advance dt → u.Ready n →
    ∀ (c : Instr) (cross : Cross) (r : Reply),
      ((∃ (x y : Word) (cx cy : Nat), c = .crossPlace dt n x y ∧ cx = min x.toNat 4095 ∧ cy = min y.toNat 4095 ∧
          cross =
            { u.cross with
              state := .lost, x := cx, y := cy, miss := u.cross.k, hSum := 0, hCount := 0, vSum := 0, vCount := 0 } ∧
            r = { mtype := 0x11#6, code := if x.toNat = cx ∧ y.toNat = cy then .ok else .clamped
                  values := wordBytes cx ++ wordBytes cy }) ∨
        (c = .crossPark dt n ∧
          cross = { u.cross with state := .parked, miss := 0, hSum := 0, hCount := 0, vSum := 0, vCount := 0 } ∧
            r = { mtype := 0x12#6, code := .ok, values := [] })) →
        (cross.state = u.cross.state → exec c s = .next (State.replied { u with cross := cross } n r)) ∧
          ∃ t, exec c s = .next t ∧ t = { u with cross := cross, links := t.links, flags := t.flags } ∧ answered u t n r ∧
            (cross.state ≠ u.cross.state → toldBoth u t n (.cross cross.state cross.x cross.y u.port.lastSeq))

/-- MODE_SET, PICK_CANCEL and PEN_RESUME (R69, R95, R107): the mode and its owner are taken together and told to both links; an attempt in
GATHERING or CLOSING ends LOST with reason CANCELLED, whose notice goes to the mode owner set (`State.loseAttempt`, as
OutcomeIsDecidedInOrder states it), and is left HELD, or IDLE with the tip up, or with the tip DOWN again after a release followed at once
by a new attempt (R103); in IDLE and HELD the cancel is refused with STATE; the pen listens again with no floods. -/
def Obligations.ModeCancelAndResume : Prop :=
  ∀ (dt : Nat) (n : Link) (s u : State), u = s.advance dt → u.Ready n →
    (∀ mode : Byte,
      (pickModeOf mode = none →
        exec (.modeSet dt n mode) s = .next (u.replied n { mtype := 0x19#6, code := .range, values := [] })) ∧
        ∀ m, pickModeOf mode = some m →
          ∃ t, exec (.modeSet dt n mode) s = .next t ∧
            t = { u with res := { u.res with mode := m, modeOwner := .single n }, links := t.links, flags := t.flags } ∧
              answered u t n { mtype := 0x19#6, code := .ok, values := [] } ∧ toldBoth u t n (.mode m (.single n))) ∧
      (u.res.attempt = .idle ∨ u.res.attempt = .held →
        exec (.pickCancel dt n) s = .next (u.replied n { mtype := 0x1A#6, code := .state, values := [] })) ∧
        (u.res.attempt = .gathering ∨ u.res.attempt = .closing →
          ∃ t, exec (.pickCancel dt n) s = .next t ∧ answered u t n { mtype := 0x1A#6, code := .ok, values := [] } ∧
            t = u.carriedOut n (fun a => a.loseAttempt .cancelled) { mtype := 0x1A#6, code := .ok, values := [] } ∧
            t.res.tally = [] ∧
              (u.pen.tipDebounced = .down → u.res.releaseSeen = true → u.pen.muted = false → u.port.mode ≠ .dark →
                t.res.attempt = .gathering ∧ t.res.number = u.res.number + 1 ∧ t.res.frames = 0 ∧
                  t.stats = (u.stats.count .lost).count .attempts) ∧
              (u.pen.tipDebounced = .up ∨ u.res.releaseSeen = false →
                t = { u with
                      res :=
                        { u.res with tally := [], attempt := if u.pen.tipDebounced = .up then .idle else .held }
                      stats := u.stats.count .lost, links := t.links, flags := t.flags })) ∧
          exec (.penResume dt n) s =
            .next
              (State.replied { u with pen := { u.pen with floods := 0, muted := false } } n
                { mtype := 0x17#6, code := .ok, values := [] })

/-- NOTICE_MASK and FLAGS_CLEAR (R176, R179): the issuer's mask becomes the set carried, with a CONDITION notice to it alone where CONDITION
is new and a flag is set; the flags named are cleared, but DARK and PEN_MUTED stand again while their states last. A class or flag
outside its set is refused with RANGE. -/
def Obligations.MaskAndFlagsCommands : Prop :=
  ∀ (dt : Nat) (n : Link) (s u : State), u = s.advance dt → u.Ready n →
    (∀ (classes : Byte) (mask : BitVec 7) (r : Reply), mask = classes.extractLsb' 0 7 →
      r = { mtype := 0x1C#6, code := .ok, values := [mask.zeroExtend 8] } →
        (classes.getLsbD 7 = true →
          exec (.noticeMask dt n classes) s = .next (u.replied n { mtype := 0x1C#6, code := .range, values := [] })) ∧
          (classes.getLsbD 7 = false →
            (mask.getLsbD 3 = false ∨ (u.unit n).mask.getLsbD 3 = true ∨ u.flags = 0 →
              exec (.noticeMask dt n classes) s = .next (State.replied (u.setUnit n { u.unit n with mask := mask }) n r)) ∧
              ∃ t, exec (.noticeMask dt n classes) s = .next t ∧ answered u t n r ∧ (t.unit n).mask = mask ∧
                t = { u with links := t.links, flags := t.flags } ∧
                  (mask.getLsbD 3 = true → (u.unit n).mask.getLsbD 3 = false → u.flags ≠ 0 →
                    (u.unit n).queue.length < Config.noticeQueueSize →
                      (t.unit n).queue =
                        (u.unit n).queue ++ [{ notice := .condition u.flags, lossBefore := (u.unit n).lossMark }] ∧
                      t.unit (otherLink n) = u.unit (otherLink n) ∧ t.flags = u.flags))) ∧
      ∀ (flags : Word) (kept : BitVec 11),
        kept =
            (u.flags &&& ~~~(flags.extractLsb' 0 11))
              ||| (if u.port.mode = .dark then 0b00000000100#11 else 0) ||| (if u.pen.muted then 0b00000010000#11 else 0) →
          (2048 ≤ flags.toNat →
            exec (.flagsClear dt n flags) s = .next (u.replied n { mtype := 0x1D#6, code := .range, values := [] })) ∧
            (flags.toNat < 2048 →
              exec (.flagsClear dt n flags) s =
                .next
                  (State.replied { u with flags := kept } n
                    { mtype := 0x1D#6, code := .ok, values := bytes16 (kept.zeroExtend 16) }))

/-- LINK_RESET of a link (R42, R43, R96, R132, R184): its queue is flushed, its loss mark cleared and its mask reset; its staged changes
leave the list and its sweep is recorded, or applied at once while DARK; its filter entries leave, counted as an edit if there were any;
then the mode reverts if it was its own, with a MODE notice for both links, which joins the flushed queue under the reset mask. The other
link's mask stands, and so do its queue and loss mark but for that notice. The stroke port, history, pen, correlator, cross, coordinate
unit and counters stand, and the echo list but for segments that a sweep while DARK frees. The whole next state is given. -/
def Obligations.LinkResetForgetsOneLink : Prop :=
  ∀ (dt : Nat) (n : Link) (byte : Byte) (s u : State), u = s.advance dt → u.Ready n →
    (2 ≤ byte.toNat → exec (.linkReset dt n byte) s = .next (u.replied n { mtype := 0x21#6, code := .range, values := [] })) ∧
      ∀ (m : Link) (kept : List FilterEntry), byte.toNat = linkNumber m →
        kept = u.filt.entries.filter (fun e => e.author != m) →
          ∃ t, exec (.linkReset dt n byte) s = .next t ∧ answered u t n { mtype := 0x21#6, code := .ok, values := [] } ∧
            (∀ (b : State) (flush : LinkUnit → LinkUnit) (work : State → State) (r : Reply),
              r = { mtype := 0x21#6, code := .ok, values := [] } →
                flush = (fun x => { x with queue := [], lossMark := false, mask := 0b0101011#7 }) →
                  (u.port.mode ≠ .dark →
                    b = { u with
                          dir :=
                            { u.dir with
                              changes := u.dir.changes.filter (fun c => c.issuer != m)
                              sweeps := u.dir.sweeps.union (.single m) } }) →
                    (u.port.mode = .dark →
                      b =
                        (State.applySweep
                          { u with
                            dir := { u.dir with changes := u.dir.changes.filter (fun c => c.issuer != m), withdrawn := [] } }
                          m).handWithdrawn false) →
                      work = (fun a =>
                        { a.setUnit m (flush (a.unit m)) with
                          dir := b.dir, res := b.res, menu := b.menu
                          filt :=
                            { entries := kept
                              editCount :=
                                if kept.length = u.filt.entries.length then u.filt.editCount
                                else u.filt.editCount + 1 } }) →
                        (u.res.modeOwner ≠ .single m → t = u.carriedOut n work r) ∧
                          (u.res.modeOwner = .single m →
                            t =
                                u.carriedOut n
                                  (fun a =>
                                    State.post { work a with res := { b.res with mode := .element, modeOwner := .both } } .both
                                      (.mode .element .both))
                                  r ∧
                              toldBoth (u.setUnit m (flush (u.unit m))) t n (.mode .element .both))) ∧
            (t.unit m).lossMark = false ∧ (t.unit (otherLink m)).mask = (u.unit (otherLink m)).mask ∧
            (u.res.modeOwner ≠ .single m →
              (t.unit (otherLink m)).queue = (u.unit (otherLink m)).queue ∧
                (t.unit (otherLink m)).lossMark = (u.unit (otherLink m)).lossMark) ∧
            (u.port.mode ≠ .dark → t.dir.echoes = u.dir.echoes ∧ t.dir.shown = u.dir.shown) ∧
            (t.unit m).mask = 0b0101011#7 ∧
              t.filt =
                  { entries := kept
                    editCount := if kept.length = u.filt.entries.length then u.filt.editCount else u.filt.editCount + 1 } ∧
                t.dir.changes = u.dir.changes.filter (fun c => c.issuer != m) ∧
                  (u.port.mode ≠ .dark →
                    t.dir.entries = u.dir.entries ∧ t.dir.sweeps = u.dir.sweeps.union (.single m) ∧ t.menu = u.menu ∧
                      t.res.tally = u.res.tally) ∧
                    (u.port.mode = .dark → t.dir.entries = Dir.sweep m u.dir.entries ∧ t.dir.sweeps = u.dir.sweeps) ∧
                      (u.res.modeOwner = .single m → t.res.mode = .element ∧ t.res.modeOwner = .both) ∧
                        (u.res.modeOwner ≠ .single m →
                          t.res.mode = u.res.mode ∧ t.res.modeOwner = u.res.modeOwner ∧ (t.unit m).queue = [] ∧
                            (t.unit m).lossMark = false ∧ t.flags = u.flags) ∧
                          t = { u with
                                dir := t.dir, res := t.res, filt := t.filt, menu := t.menu, links := t.links, flags := t.flags } ∧
                            (t.res.attempt, t.res.number, t.res.frames, t.res.n, t.res.t, t.res.d) =
                              (u.res.attempt, u.res.number, u.res.frames, u.res.n, u.res.t, u.res.d)

/-- PART_RESET, the RESET line and power-on (R20, R47, R59, R75, R76, R94, R97, R122, R146, R147, R160, R177, R185, R186): the whole part
takes its reset state, the pen lines as sampled, the links free but for RESTARTED with its cause, which each has begun to send; the line
rate is the straps' at power-on and kept otherwise. What waits outside the part stays (log 25). -/
def Obligations.ResetsTakeTheResetState : Prop :=
  ∀ (rate : LineRate) (cause : RestartCause) (tip : TipLevel) (line enable : Bool) (waiting : List Instr) (l : LinkUnit) (z : State),
    l = { rx := .hunting, inbound := [], slot := none, queue := [], lossMark := false, mask := 0b0101011#7, busy := false
          tx := some (.notice { notice := .restarted cause, lossBefore := false }) } →
      z = { port :=
              { mode := .dark, resync := false, openSeg := none, lastSeq := 0, frameTime := 0, fifo := [], pendingGap := none
                hold := false, assembler := none, answers := [], absence := 0, h := 12, lw := 4, ta := 200 }
            dir :=
              { entries := [], sweeps := .none, changes := [], echoes := [], shown := [], shownStyle := .bright
                echoLength := 10, echoStyle := .bright, withdrawn := [] }
            hist :=
              { ring := [], isOpen := false, openSeg := none, elementCount := 0, gapOpen := false, wrapped := false
                took := false }
            pen :=
              { line := line, enable := enable, pulse := none, lastHit := none, hitCount := 0, flooded := false, floods := 0
                muted := false, waiting := [], tipRaw := tip, tipDebounced := tip, tipTimer := none, wmin := 3, dd := 30
                f := 64, tb := 8 }
            corr := { l := 20, w := 5, newestStart := none, frameDone := true, frame := 0 }
            res :=
              { mode := .element, modeOwner := .both, attempt := .idle, number := 0, frames := 0, releaseSeen := false
                gap := false, overflow := false, withdrawn := false, closing := 0, fresh := false, tally := [], n := 3
                t := 24, d := 12 }
            filt := { entries := [], editCount := 0 }
            menu := { next := [], current := [], sums := [], leading := none, dwellCount := 0, latched := none, dw := 0 }
            cross :=
              { state := .parked, x := 2048, y := 2048, miss := 0, hSum := 0, hCount := 0, vSum := 0, vCount := 0
                slew := 64, k := 8 }
            coord := { view := { orientation := .deg0, ox := 0, oy := 0, sc := 256 }, px := 0, py := 0, gx := 0, gy := 0 }
            links := { rate := rate, u0 := l, u1 := l }, flags := 0b00000000100#11, stats := Stats.zero, answerOut := 0
            pending := waiting } →
        (∀ s : State, cause = .powerOn → waiting = s.pending → exec (.powerOn rate tip line enable) s = .next z) ∧
          ∀ (dt : Nat) (s u : State), u = s.advance dt → rate = u.links.rate → waiting = u.pending →
            tip = u.pen.tipRaw → line = u.pen.line → enable = u.pen.enable →
              (cause = .resetLine → exec (.resetLine dt) s = .next z) ∧
                ∀ n, u.Ready n → cause = .partReset n → exec (.partReset dt n) s = .next z

/-! ## Cross, echo, dwell, coordinates -/

/-- The frame-end update of the cross (R151, R152): PARKED it stands; else each axis with points moves toward their mean, rounded half up,
by at most S unless S is 0, staying between the two; any point makes it TRACKING with miss count 0; a frame without one counts a miss
while TRACKING, and at K the cross is LOST; the accumulators are emptied. A changed cross state is told to both links (R157). -/
def Obligations.CrossFollowsItsPoints : Prop :=
  (∀ s t : State, t = { s with cross := s.cross.update } →
    (t.cross.state = s.cross.state → crossUpdate s = t) ∧
      (t.cross.state ≠ s.cross.state →
        crossUpdate s = t.post .both (.cross t.cross.state t.cross.x t.cross.y s.port.lastSeq))) ∧
  (∀ slew coord sum count target : Nat, coord ≤ 4095 →
    (count = 0 → moveAxis slew coord sum count = coord) ∧
      (0 < count → target = (2 * sum + count) / (2 * count) → target ≤ 4095 →
        (slew = 0 ∨ (coord ≤ target + slew ∧ target ≤ coord + slew) → moveAxis slew coord sum count = target) ∧
          (slew ≠ 0 → coord + slew < target → moveAxis slew coord sum count = coord + slew) ∧
            (slew ≠ 0 → target + slew < coord → moveAxis slew coord sum count = coord - slew))) ∧
    ∀ (c e : Cross), e = { c with hSum := 0, hCount := 0, vSum := 0, vCount := 0 } →
      (c.state = .parked → c.update = c) ∧
        (c.state ≠ .parked → 0 < c.hCount + c.vCount →
          c.update =
            { e with
              x := moveAxis c.slew c.x c.hSum c.hCount, y := moveAxis c.slew c.y c.vSum c.vCount, state := .tracking
              miss := 0 }) ∧
          (c.hCount = 0 → c.vCount = 0 →
            (c.state = .tracking →
              c.update = { e with miss := c.miss + 1, state := if c.k ≤ c.miss + 1 then .lost else .tracking }) ∧
              (c.state = .lost → c.update = e))

/-- The echo list (R44, R46): an add with a length other than 0 puts the segment last with that count, once, and lets the oldest of four
others go; the echo step shows the segments listed, with the style in force, and counts each entry down, dropping it at 0. -/
def Obligations.EchoesAreAddedAndCountedDown : Prop :=
  (∀ (length seg : Nat) (list : List Echo),
    (length = 0 → addEcho length seg list = list) ∧
      (length ≠ 0 → (list.filter (fun e => e.seg ≠ seg)).length < 4 →
        addEcho length seg list = list.filter (fun e => e.seg ≠ seg) ++ [{ seg := seg, count := length }]) ∧
        (length ≠ 0 → 4 ≤ (list.filter (fun e => e.seg ≠ seg)).length →
          addEcho length seg list = (list.filter (fun e => e.seg ≠ seg)).tail ++ [{ seg := seg, count := length }])) ∧
    ∀ s : State,
      s.echoStep =
        { s with
          dir :=
            { s.dir with
              shown := s.dir.echoes.map (fun e => e.seg), shownStyle := s.dir.echoStyle
              echoes := (s.dir.echoes.filter (fun e => 2 ≤ e.count)).map (fun e => { e with count := e.count - 1 }) } }

/-- Dwell at a frame end (R141, R142, R143): without a dwell item the leading item, count and latch are cleared; with one, a latch on
another is cleared, the count runs on or begins at 1, and at Dw an item that is not latched is chosen: the attempt number is increased, an
attempt and a pick are counted, the item is latched and the count begins again. The dwell item is the heaviest item of the frame sums
while the attempt state is IDLE, and of equally heavy ones that of the lowest number; IDLE with an entry there is one. The choice is a
MENU outcome with the notice of R143, on its entry's route. A candidate of class MENU joins the frame sums (R140): in the entry of its
segment, or as a new one, or it is passed over where eight others stand, as is one of class DRAWING. That an entry's hit count stays at
255 is the model's choice (log 22). -/
def Obligations.DwellChoosesTheHeldItem : Prop :=
  (∀ (gap : Bool) (sums : List FrameSum) (c : Candidate),
    (c.cls ≠ .menu → addCandidateToSums gap sums c = sums) ∧
      (c.cls = .menu →
        (∀ before e after, sums = before ++ e :: after → e.seg = c.key.seg → (∀ f ∈ before, f.seg ≠ c.key.seg) →
          addCandidateToSums gap sums c =
            before
              ++ { e with
                   weight := e.weight + c.weight, hits := min 255 (e.hits + 1), tag := c.tag, point := c.point
                   element := c.element, saturated := c.saturated, gap := e.gap || gap }
                :: after) ∧
          ((∀ f ∈ sums, f.seg ≠ c.key.seg) →
            (sums.length < 8 →
              addCandidateToSums gap sums c =
                sums
                  ++ [{ seg := c.key.seg, weight := c.weight, hits := 1, route := c.route, tag := c.tag, point := c.point
                        element := c.element, saturated := c.saturated, gap := gap }]) ∧
              (8 ≤ sums.length → addCandidateToSums gap sums c = sums)))) ∧
  (∀ s : State, s.dwellItem = none →
    menuDwell s = { s with menu := { s.menu with latched := none, leading := none, dwellCount := 0 } }) ∧
    (∀ (s : State) (e : FrameSum) (count : Nat) (m : Menu), s.dwellItem = some e →
      count = (if s.menu.leading = some e.seg then min (s.menu.dwellCount + 1) 60 else 1) → s.menu.dwellCount ≤ 60 →
        m = { s.menu with
              latched := if s.menu.latched = some e.seg then some e.seg else none
              leading := some e.seg, dwellCount := count } →
          (s.menu.dw = 0 ∨ count < s.menu.dw ∨ s.menu.latched = some e.seg → menuDwell s = { s with menu := m }) ∧
            (s.menu.dw ≠ 0 → s.menu.dw ≤ count → s.menu.latched ≠ some e.seg →
              (∀ (b u : State) (x : PickNotice),
                b = { s with
                      menu := m, res := { s.res with number := s.res.number + 1 }, stats := s.stats.count .attempts } →
                  x =
                      { kind := .menu, attempt := s.res.number + 1, frames := min count 15, reason := .absent
                        flags :=
                          { gap := e.gap, overflow := false, withdrawn := false, elementSaturated := e.saturated
                            saturated := (s.coord.convert e.point).saturated, snapped := (s.coord.convert e.point).snapped
                            dwell := true }
                        primary :=
                          some
                            { source := .none
                              picked :=
                                some
                                  { seg := e.seg, whole := true, element := e.element, saturated := e.saturated
                                    tag := e.tag, score := e.weight, hits := e.hits, framesSeen := min count 15 }
                              screen := e.point, loftX := (s.coord.convert e.point).x
                              loftY := (s.coord.convert e.point).y }
                        list := [] } →
                    u = b.menuOutcome e.seg e.route x →
                      menuDwell s = { u with menu := { u.menu with latched := some e.seg, dwellCount := 0 } }) ∧
              (menuDwell s).menu.latched = some e.seg ∧ (menuDwell s).menu.dwellCount = 0 ∧
                (menuDwell s).res.number = s.res.number + 1 ∧ (menuDwell s).res.attempt = s.res.attempt ∧
                  (menuDwell s).stats = (s.stats.count .attempts).count .picks ∧
                    (menuDwell s).dir.echoes = addEcho s.dir.echoLength e.seg s.dir.echoes)) ∧
      (∀ s : State, s.res.attempt = .idle → s.menu.sums ≠ [] → s.dwellItem ≠ none) ∧
      ∀ (s : State) (e : FrameSum), s.dwellItem = some e →
        s.res.attempt = .idle ∧ e ∈ s.menu.sums ∧
          ∀ f ∈ s.menu.sums, f.weight < e.weight ∨ (f.weight = e.weight ∧ e.seg ≤ f.seg)

/-- A conversion (R161 to R165): the screen point is turned as the orientation gives, staying in 0..4095; the window adds to the origin
the quotient by 256 rounded half away from zero; the snap puts it on the grid of a pitch other than 0; saturation keeps
it within -2147483647..2147483647, and the marks say whether a coordinate was saturated and whether a pitch was set. -/
def Obligations.ScreenPointIsConverted : Prop :=
  (∀ (sx sy : Nat),
    turn .deg0 { x := sx, y := sy } = ((sx : Int), (sy : Int)) ∧
      turn .deg90 { x := sx, y := sy } = ((sy : Int), 4095 - (sx : Int)) ∧
        turn .deg180 { x := sx, y := sy } = (4095 - (sx : Int), 4095 - (sy : Int)) ∧
          turn .deg270 { x := sx, y := sy } = (4095 - (sy : Int), (sx : Int))) ∧
    (∀ (num : Int) (den : Nat), 0 < den →
      2 * (num - den * roundHalfAway num den).natAbs ≤ den ∧
        (2 * (num - den * roundHalfAway num den).natAbs = den → num.natAbs ≤ den * (roundHalfAway num den).natAbs)) ∧
      ∀ (c : Coord) (p : ScreenPoint) (u : Int × Int) (lx ly : Int), u = turn c.view.orientation p →
        lx = snap c.px c.gx (c.view.ox.toInt + roundHalfAway ((u.1 - 2048) * c.view.sc) 256) →
          ly = snap c.py c.gy (c.view.oy.toInt + roundHalfAway ((u.2 - 2048) * c.view.sc) 256) →
            (c.convert p).x = max (-2147483647) (min lx 2147483647) ∧ (c.convert p).y = max (-2147483647) (min ly 2147483647) ∧
              ((c.convert p).saturated = true ↔ (c.convert p).x ≠ lx ∨ (c.convert p).y ≠ ly) ∧
                ((c.convert p).snapped = true ↔ c.px ≠ 0 ∨ c.py ≠ 0) ∧
                  (∀ v, snap 0 c.gx v = v) ∧
                    ∀ (pitch : Word) (origin : Long) (v : Int), pitch ≠ 0 →
                      snap pitch origin v = origin.toInt + pitch.toNat * roundHalfAway (v - origin.toInt) pitch.toNat
end

