-- ==== Sys2Proof/Laws/State.lean ====
section
/-! SUPPORT. What the plainest updates of State leave as it was: one lemma per field and update, by rfl or by cases of the link. -/

namespace Sys2Proof.Machine

/-! ## The unit of a link -/

@[simp] theorem unit_setUnit_same (s : State) (n : Link) (u : LinkUnit) : (s.setUnit n u).unit n = u := by
  cases n <;> rfl

theorem unit_setUnit_ne {n m : Link} (h : n ≠ m) (s : State) (u : LinkUnit) : (s.setUnit n u).unit m = s.unit m := by
  cases n <;> cases m <;> first | rfl | exact absurd rfl h

@[simp] theorem unit_setUnit_otherLink (s : State) (n : Link) (u : LinkUnit) :
    (s.setUnit n u).unit (otherLink n) = s.unit (otherLink n) := by
  cases n <;> rfl

@[simp] theorem setUnit_setUnit_same (s : State) (n : Link) (u v : LinkUnit) :
    (s.setUnit n u).setUnit n v = s.setUnit n v := by
  cases n <;> rfl

@[simp] theorem setUnit_unit (s : State) (n : Link) : s.setUnit n (s.unit n) = s := by
  cases n <;> rfl

@[simp] theorem setUnit_rate (s : State) (n : Link) (u : LinkUnit) : (s.setUnit n u).links.rate = s.links.rate := by
  cases n <;> rfl

theorem otherLink_ne (n : Link) : otherLink n ≠ n := by
  cases n <;> exact fun h => nomatch h

@[simp] theorem setUnit_port (s : State) (n : Link) (u : LinkUnit) : (s.setUnit n u).port = s.port := by
  cases n <;> rfl

@[simp] theorem setUnit_dir (s : State) (n : Link) (u : LinkUnit) : (s.setUnit n u).dir = s.dir := by
  cases n <;> rfl

@[simp] theorem setUnit_hist (s : State) (n : Link) (u : LinkUnit) : (s.setUnit n u).hist = s.hist := by
  cases n <;> rfl

@[simp] theorem setUnit_pen (s : State) (n : Link) (u : LinkUnit) : (s.setUnit n u).pen = s.pen := by
  cases n <;> rfl

@[simp] theorem setUnit_corr (s : State) (n : Link) (u : LinkUnit) : (s.setUnit n u).corr = s.corr := by
  cases n <;> rfl

@[simp] theorem setUnit_res (s : State) (n : Link) (u : LinkUnit) : (s.setUnit n u).res = s.res := by
  cases n <;> rfl

@[simp] theorem setUnit_filt (s : State) (n : Link) (u : LinkUnit) : (s.setUnit n u).filt = s.filt := by
  cases n <;> rfl

@[simp] theorem setUnit_menu (s : State) (n : Link) (u : LinkUnit) : (s.setUnit n u).menu = s.menu := by
  cases n <;> rfl

@[simp] theorem setUnit_cross (s : State) (n : Link) (u : LinkUnit) : (s.setUnit n u).cross = s.cross := by
  cases n <;> rfl

@[simp] theorem setUnit_coord (s : State) (n : Link) (u : LinkUnit) : (s.setUnit n u).coord = s.coord := by
  cases n <;> rfl

@[simp] theorem setUnit_flags (s : State) (n : Link) (u : LinkUnit) : (s.setUnit n u).flags = s.flags := by
  cases n <;> rfl

@[simp] theorem setUnit_stats (s : State) (n : Link) (u : LinkUnit) : (s.setUnit n u).stats = s.stats := by
  cases n <;> rfl

@[simp] theorem setUnit_answerOut (s : State) (n : Link) (u : LinkUnit) : (s.setUnit n u).answerOut = s.answerOut := by
  cases n <;> rfl

@[simp] theorem setUnit_pending (s : State) (n : Link) (u : LinkUnit) : (s.setUnit n u).pending = s.pending := by
  cases n <;> rfl

/-! ## Counting -/

@[simp] theorem count_port (s : State) (c : Counter) : (s.count c).port = s.port := rfl

@[simp] theorem count_dir (s : State) (c : Counter) : (s.count c).dir = s.dir := rfl

@[simp] theorem count_hist (s : State) (c : Counter) : (s.count c).hist = s.hist := rfl

@[simp] theorem count_pen (s : State) (c : Counter) : (s.count c).pen = s.pen := rfl

@[simp] theorem count_corr (s : State) (c : Counter) : (s.count c).corr = s.corr := rfl

@[simp] theorem count_res (s : State) (c : Counter) : (s.count c).res = s.res := rfl

@[simp] theorem count_filt (s : State) (c : Counter) : (s.count c).filt = s.filt := rfl

@[simp] theorem count_menu (s : State) (c : Counter) : (s.count c).menu = s.menu := rfl

@[simp] theorem count_cross (s : State) (c : Counter) : (s.count c).cross = s.cross := rfl

@[simp] theorem count_coord (s : State) (c : Counter) : (s.count c).coord = s.coord := rfl

@[simp] theorem count_links (s : State) (c : Counter) : (s.count c).links = s.links := rfl

@[simp] theorem count_flags (s : State) (c : Counter) : (s.count c).flags = s.flags := rfl

@[simp] theorem count_answerOut (s : State) (c : Counter) : (s.count c).answerOut = s.answerOut := rfl

@[simp] theorem count_pending (s : State) (c : Counter) : (s.count c).pending = s.pending := rfl

@[simp] theorem count_unit (s : State) (c : Counter) (n : Link) : (s.count c).unit n = s.unit n := by
  cases n <;> rfl

/-! ## The mark of a command being carried out, and the receiver -/

@[simp] theorem setBusy_port (s : State) (n : Link) (b : Bool) : (s.setBusy n b).port = s.port := by
  cases n <;> rfl

@[simp] theorem setReceiver_port (s : State) (n : Link) (rx : Receiver) : (s.setReceiver n rx).port = s.port := by
  cases n <;> rfl

@[simp] theorem placeReply_port (s : State) (n : Link) (r : Reply) : (s.placeReply n r).port = s.port := by
  cases n <;> rfl

@[simp] theorem setBusy_dir (s : State) (n : Link) (b : Bool) : (s.setBusy n b).dir = s.dir := by
  cases n <;> rfl

@[simp] theorem setReceiver_dir (s : State) (n : Link) (rx : Receiver) : (s.setReceiver n rx).dir = s.dir := by
  cases n <;> rfl

@[simp] theorem placeReply_dir (s : State) (n : Link) (r : Reply) : (s.placeReply n r).dir = s.dir := by
  cases n <;> rfl

@[simp] theorem setBusy_hist (s : State) (n : Link) (b : Bool) : (s.setBusy n b).hist = s.hist := by
  cases n <;> rfl

@[simp] theorem setReceiver_hist (s : State) (n : Link) (rx : Receiver) : (s.setReceiver n rx).hist = s.hist := by
  cases n <;> rfl

@[simp] theorem placeReply_hist (s : State) (n : Link) (r : Reply) : (s.placeReply n r).hist = s.hist := by
  cases n <;> rfl

@[simp] theorem setBusy_pen (s : State) (n : Link) (b : Bool) : (s.setBusy n b).pen = s.pen := by
  cases n <;> rfl

@[simp] theorem setReceiver_pen (s : State) (n : Link) (rx : Receiver) : (s.setReceiver n rx).pen = s.pen := by
  cases n <;> rfl

@[simp] theorem placeReply_pen (s : State) (n : Link) (r : Reply) : (s.placeReply n r).pen = s.pen := by
  cases n <;> rfl

@[simp] theorem setBusy_corr (s : State) (n : Link) (b : Bool) : (s.setBusy n b).corr = s.corr := by
  cases n <;> rfl

@[simp] theorem setReceiver_corr (s : State) (n : Link) (rx : Receiver) : (s.setReceiver n rx).corr = s.corr := by
  cases n <;> rfl

@[simp] theorem placeReply_corr (s : State) (n : Link) (r : Reply) : (s.placeReply n r).corr = s.corr := by
  cases n <;> rfl

@[simp] theorem setBusy_res (s : State) (n : Link) (b : Bool) : (s.setBusy n b).res = s.res := by
  cases n <;> rfl

@[simp] theorem setReceiver_res (s : State) (n : Link) (rx : Receiver) : (s.setReceiver n rx).res = s.res := by
  cases n <;> rfl

@[simp] theorem placeReply_res (s : State) (n : Link) (r : Reply) : (s.placeReply n r).res = s.res := by
  cases n <;> rfl

@[simp] theorem setBusy_filt (s : State) (n : Link) (b : Bool) : (s.setBusy n b).filt = s.filt := by
  cases n <;> rfl

@[simp] theorem setReceiver_filt (s : State) (n : Link) (rx : Receiver) : (s.setReceiver n rx).filt = s.filt := by
  cases n <;> rfl

@[simp] theorem placeReply_filt (s : State) (n : Link) (r : Reply) : (s.placeReply n r).filt = s.filt := by
  cases n <;> rfl

@[simp] theorem setBusy_menu (s : State) (n : Link) (b : Bool) : (s.setBusy n b).menu = s.menu := by
  cases n <;> rfl

@[simp] theorem setReceiver_menu (s : State) (n : Link) (rx : Receiver) : (s.setReceiver n rx).menu = s.menu := by
  cases n <;> rfl

@[simp] theorem placeReply_menu (s : State) (n : Link) (r : Reply) : (s.placeReply n r).menu = s.menu := by
  cases n <;> rfl

@[simp] theorem setBusy_cross (s : State) (n : Link) (b : Bool) : (s.setBusy n b).cross = s.cross := by
  cases n <;> rfl

@[simp] theorem setReceiver_cross (s : State) (n : Link) (rx : Receiver) : (s.setReceiver n rx).cross = s.cross := by
  cases n <;> rfl

@[simp] theorem placeReply_cross (s : State) (n : Link) (r : Reply) : (s.placeReply n r).cross = s.cross := by
  cases n <;> rfl

@[simp] theorem setBusy_coord (s : State) (n : Link) (b : Bool) : (s.setBusy n b).coord = s.coord := by
  cases n <;> rfl

@[simp] theorem setReceiver_coord (s : State) (n : Link) (rx : Receiver) : (s.setReceiver n rx).coord = s.coord := by
  cases n <;> rfl

@[simp] theorem placeReply_coord (s : State) (n : Link) (r : Reply) : (s.placeReply n r).coord = s.coord := by
  cases n <;> rfl

@[simp] theorem setBusy_flags (s : State) (n : Link) (b : Bool) : (s.setBusy n b).flags = s.flags := by
  cases n <;> rfl

@[simp] theorem setReceiver_flags (s : State) (n : Link) (rx : Receiver) : (s.setReceiver n rx).flags = s.flags := by
  cases n <;> rfl

@[simp] theorem placeReply_flags (s : State) (n : Link) (r : Reply) : (s.placeReply n r).flags = s.flags := by
  cases n <;> rfl

@[simp] theorem setBusy_stats (s : State) (n : Link) (b : Bool) : (s.setBusy n b).stats = s.stats := by
  cases n <;> rfl

@[simp] theorem setReceiver_stats (s : State) (n : Link) (rx : Receiver) : (s.setReceiver n rx).stats = s.stats := by
  cases n <;> rfl

@[simp] theorem placeReply_stats (s : State) (n : Link) (r : Reply) : (s.placeReply n r).stats = s.stats := by
  cases n <;> rfl

@[simp] theorem setBusy_answerOut (s : State) (n : Link) (b : Bool) : (s.setBusy n b).answerOut = s.answerOut := by
  cases n <;> rfl

@[simp] theorem setReceiver_answerOut (s : State) (n : Link) (rx : Receiver) : (s.setReceiver n rx).answerOut = s.answerOut := by
  cases n <;> rfl

@[simp] theorem placeReply_answerOut (s : State) (n : Link) (r : Reply) : (s.placeReply n r).answerOut = s.answerOut := by
  cases n <;> rfl

@[simp] theorem setBusy_pending (s : State) (n : Link) (b : Bool) : (s.setBusy n b).pending = s.pending := by
  cases n <;> rfl

@[simp] theorem setReceiver_pending (s : State) (n : Link) (rx : Receiver) : (s.setReceiver n rx).pending = s.pending := by
  cases n <;> rfl

@[simp] theorem placeReply_pending (s : State) (n : Link) (r : Reply) : (s.placeReply n r).pending = s.pending := by
  cases n <;> rfl

/-! ## A command taken at once -/

/-- On a ready link a command is carried out at once: its work, and then its reply (R173, R174). -/
theorem linkCommand_carriedOut {u : State} {n : Link} {c : LinkCmd} {work : State → State} {r : Reply} (h : u.Ready n)
    (hw : commandWork n c ((u.setReceiver n .hunting).setBusy n true)
      = (work ((u.setReceiver n .hunting).setBusy n true), some r)) :
    u.linkCommand n c = u.carriedOut n work r := by
  have hl : u.linkCommand n c = (u.setReceiver n .hunting).carryOut n c := by
    unfold State.linkCommand
    rw [h.slot, h.inbound]
    exact if_pos rfl
  rw [hl]
  unfold State.carryOut
  rw [hw]
  exact Eq.refl (u.carriedOut n work r)

end Sys2Proof.Machine
end

