-- ==== Sys2Proof/Laws/Notices.lean ====
section
/-! SUPPORT. What queuing notices and setting condition flags can do: the relation Posted, and that it holds of `post`, `setFlag`
and `postSettings`. -/

namespace Sys2Proof.Machine

/-! ## A link unit to which notices are offered -/

/-- A link unit keeps its place in the rules of R174: an idle transmitter of a link whose command is not being carried out leaves
neither a reply nor a notice waiting. -/
def LinkUnit.served (u : LinkUnit) : Prop := u.busy = false → u.tx = none → u.slot = none ∧ u.queue = []

/-- What offering notices to a link unit leaves as it was. -/
structure LinkUnit.Offered (u v : LinkUnit) : Prop where
  rx : v.rx = u.rx
  inbound : v.inbound = u.inbound
  mask : v.mask = u.mask
  busy : v.busy = u.busy
  sending : u.busy = true ∨ u.tx ≠ none → v.tx = u.tx ∧ v.slot = u.slot
  slot : u.slot = none → v.slot = none
  begun : u.tx ≠ none → v.tx ≠ none
  room : u.queue.length ≤ Config.noticeQueueSize → v.queue.length ≤ Config.noticeQueueSize
  served : u.served → v.served

theorem LinkUnit.Offered.refl (u : LinkUnit) : u.Offered u :=
  ⟨rfl, rfl, rfl, rfl, fun _ => ⟨rfl, rfl⟩, id, id, id, id⟩

theorem LinkUnit.Offered.trans {u v w : LinkUnit} (h : u.Offered v) (k : v.Offered w) : u.Offered w where
  rx := k.rx.trans h.rx
  inbound := k.inbound.trans h.inbound
  mask := k.mask.trans h.mask
  busy := k.busy.trans h.busy
  sending := fun c => by
    have hv := h.sending c
    have cv : v.busy = true ∨ v.tx ≠ none := by
      rcases c with c | c
      · exact .inl (h.busy.trans c)
      · exact .inr (by rw [hv.1]; exact c)
    exact ⟨(k.sending cv).1.trans hv.1, (k.sending cv).2.trans hv.2⟩
  slot := fun c => k.slot (h.slot c)
  begun := fun c => k.begun (h.begun c)
  room := fun c => k.room (h.room c)
  served := fun c => k.served (h.served c)

theorem LinkUnit.kick_rx (u : LinkUnit) : u.kick.rx = u.rx := by
  unfold kick; split
  · rfl
  · split
    · rfl
    · split <;> rfl

theorem LinkUnit.kick_inbound (u : LinkUnit) : u.kick.inbound = u.inbound := by
  unfold kick; split
  · rfl
  · split
    · rfl
    · split <;> rfl

theorem LinkUnit.kick_mask (u : LinkUnit) : u.kick.mask = u.mask := by
  unfold kick; split
  · rfl
  · split
    · rfl
    · split <;> rfl

theorem LinkUnit.kick_busy (u : LinkUnit) : u.kick.busy = u.busy := by
  unfold kick; split
  · rfl
  · split
    · rfl
    · split <;> rfl

theorem LinkUnit.kick_lossMark (u : LinkUnit) : u.kick.lossMark = u.lossMark := by
  unfold kick; split
  · rfl
  · split
    · rfl
    · split <;> rfl

/-- A transmitter that is sending, or whose link's command is being carried out, begins nothing (R174). -/
theorem LinkUnit.kick_of_blocked {u : LinkUnit} (h : u.busy = true ∨ u.tx ≠ none) : u.kick = u := by
  unfold kick
  have : (u.busy || u.tx.isSome) = true := by
    rcases h with h | h
    · simp [h]
    · cases e : u.tx
      · exact absurd e h
      · simp
  rw [if_pos this]

/-- An idle transmitter begins the reply in the slot (R174). -/
theorem LinkUnit.kick_of_reply {u : LinkUnit} {r : Reply} (hb : u.busy = false) (ht : u.tx = none) (hs : u.slot = some r) :
    u.kick = { u with tx := some (.reply r), slot := none } := by
  unfold kick
  rw [if_neg (by simp [hb, ht])]
  rw [hs]

/-- With no reply in the slot, an idle transmitter begins the oldest notice (R174). -/
theorem LinkUnit.kick_of_notice {u : LinkUnit} {q : QueuedNotice} {rest : List QueuedNotice} (hb : u.busy = false)
    (ht : u.tx = none) (hs : u.slot = none) (hq : u.queue = q :: rest) :
    u.kick = { u with tx := some (.notice q), queue := rest } := by
  unfold kick
  rw [if_neg (by simp [hb, ht])]
  simp only [hs, hq]

/-- With nothing to send, a transmitter stays idle (R174). -/
theorem LinkUnit.kick_of_nothing {u : LinkUnit} (hs : u.slot = none) (hq : u.queue = []) : u.kick = u := by
  unfold kick
  split
  · rfl
  · simp only [hs, hq]

theorem LinkUnit.kick_queue_length (u : LinkUnit) : u.kick.queue.length ≤ u.queue.length := by
  unfold kick; split
  · exact Nat.le_refl _
  · split
    · exact Nat.le_refl _
    · split
      · rename_i q rest h; simp [h]
      · exact Nat.le_refl _

theorem LinkUnit.kick_served (u : LinkUnit) : u.kick.served := by
  intro hb ht
  rw [kick_busy] at hb
  cases e : u.tx with
  | some x =>
    rw [kick_of_blocked (.inr (by rw [e]; exact fun c => nomatch c))] at ht
    rw [e] at ht; cases ht
  | none =>
    cases hs : u.slot with
    | some r => rw [kick_of_reply hb e hs] at ht; cases ht
    | none =>
      cases hq : u.queue with
      | nil => rw [kick_of_nothing hs hq]; exact ⟨hs, hq⟩
      | cons q rest => rw [kick_of_notice hb e hs hq] at ht; cases ht

theorem LinkUnit.kick_slot (u : LinkUnit) (h : u.slot = none) : u.kick.slot = none := by
  unfold kick; split
  · exact h
  · simp only [h]
    split
    · rfl
    · exact h

theorem LinkUnit.kick_begun (u : LinkUnit) (h : u.tx ≠ none) : u.kick.tx = u.tx := by
  rw [kick_of_blocked (.inr h)]

/-- One notice offered (R175, R176). -/
theorem LinkUnit.offer_offered (u : LinkUnit) (x : Notice) : u.Offered (u.offer x).1 := by
  unfold offer
  split
  · exact .refl u
  · split
    · rename_i hlen
      refine ⟨kick_rx _, kick_inbound _, kick_mask _, kick_busy _, fun c => ?_, fun c => kick_slot _ c, fun c => ?_, fun _ => ?_,
        fun _ => kick_served _⟩
      · rw [show (({ u with
            queue := u.queue ++ [{ notice := x, lossBefore := u.lossMark }], lossMark := false } : LinkUnit).kick)
            = { u with queue := u.queue ++ [{ notice := x, lossBefore := u.lossMark }], lossMark := false }
            from kick_of_blocked c]
        exact ⟨rfl, rfl⟩
      · exact fun e => c ((kick_begun { u with
          queue := u.queue ++ [{ notice := x, lossBefore := u.lossMark }], lossMark := false } c).symm.trans e)
      · refine Nat.le_trans (kick_queue_length _) ?_
        rw [List.length_append]
        exact hlen
    · exact ⟨rfl, rfl, rfl, rfl, fun _ => ⟨rfl, rfl⟩, id, id, id, id⟩

/-! ## Notices posted in the part -/

/-- What queuing notices and setting condition flags leave as it was, and what they keep (R174 to R178). -/
structure Posted (s t : State) : Prop where
  same : t = { s with links := t.links, flags := t.flags }
  unit : ∀ n, (s.unit n).Offered (t.unit n)
  rate : t.links.rate = s.links.rate
  flags : ∀ f, flagSet s.flags f = true → flagSet t.flags f = true

theorem Posted.refl (s : State) : Posted s s := ⟨rfl, fun _ => .refl _, rfl, fun _ => id⟩

theorem Posted.trans {s t u : State} (h : Posted s t) (k : Posted t u) : Posted s u where
  same := by
    have e := k.same
    rw [h.same] at e
    exact e
  unit := fun n => (h.unit n).trans (k.unit n)
  rate := k.rate.trans h.rate
  flags := fun f c => k.flags f (h.flags f c)

section Fields
variable {s t : State} (h : Posted s t)
include h
theorem Posted.port : t.port = s.port := (congrArg State.port h.same :)
theorem Posted.dir : t.dir = s.dir := (congrArg State.dir h.same :)
theorem Posted.hist : t.hist = s.hist := (congrArg State.hist h.same :)
theorem Posted.pen : t.pen = s.pen := (congrArg State.pen h.same :)
theorem Posted.corr : t.corr = s.corr := (congrArg State.corr h.same :)
theorem Posted.res : t.res = s.res := (congrArg State.res h.same :)
theorem Posted.filt : t.filt = s.filt := (congrArg State.filt h.same :)
theorem Posted.menu : t.menu = s.menu := (congrArg State.menu h.same :)
theorem Posted.cross : t.cross = s.cross := (congrArg State.cross h.same :)
theorem Posted.coord : t.coord = s.coord := (congrArg State.coord h.same :)
theorem Posted.stats : t.stats = s.stats := (congrArg State.stats h.same :)
theorem Posted.answerOut : t.answerOut = s.answerOut := (congrArg State.answerOut h.same :)
theorem Posted.pending : t.pending = s.pending := (congrArg State.pending h.same :)
end Fields

/-- A flag set with one more flag keeps every flag. -/
theorem flagSet_withFlag_of (flags : BitVec 11) (f g : ConditionFlag) (h : flagSet flags g = true) :
    flagSet (withFlag flags f) g = true := by
  have hb : ∀ a b c : BitVec 11, ((a &&& c != 0) = true) → (((a ||| b) &&& c != 0) = true) := by
    intro a b c hac
    rw [bne_iff_ne] at hac ⊢
    intro e
    apply hac
    ext i hi
    have := congrArg (fun x => x[i]) e
    simp at this ⊢
    grind
  exact hb _ _ _ h

/-- A flag set with a flag holds it. -/
theorem flagSet_withFlag_self (flags : BitVec 11) (f : ConditionFlag) : flagSet (withFlag flags f) f = true := by
  have hb : ∀ a b : BitVec 11, b ≠ 0 → (((a ||| b) &&& b != 0) = true) := by
    intro a b hb
    rw [bne_iff_ne]
    intro e
    apply hb
    ext i hi
    have := congrArg (fun x => x[i]) e
    simp at this ⊢
    grind
  refine hb _ _ ?_
  cases f with
  | frameError n => cases n <;> decide
  | queueLoss n => cases n <;> decide
  | _ => decide

/-- A flag set with a flag holds every other flag as it did. -/
theorem flagSet_withFlag_ne (flags : BitVec 11) {f g : ConditionFlag} (h : g ≠ f) :
    flagSet (withFlag flags f) g = flagSet flags g := by
  have hb : f.bit &&& g.bit = 0 := by
    cases f <;> cases g <;> first
      | exact absurd rfl h
      | decide
      | (rename_i n; cases n <;> decide)
      | (rename_i n m; cases n <;> cases m <;> first | exact absurd rfl h | decide)
  have hd : ∀ a b c : BitVec 11, b &&& c = 0 → (a ||| b) &&& c = a &&& c := by
    intro a b c hz
    ext i hi
    have := congrArg (fun x => x[i]) hz
    simp at this ⊢
    grind
  unfold flagSet withFlag
  rw [hd _ _ _ hb]

theorem offer_flags (s : State) (n : Link) (x : Notice) : (s.offer n x).1.flags = s.flags := by cases n <;> rfl

theorem offer_posted (s : State) (n : Link) (x : Notice) : Posted s (s.offer n x).1 := by
  unfold State.offer
  refine ⟨?_, fun m => ?_, ?_, fun f h => ?_⟩
  · cases n <;> rfl
  · cases n <;> cases m <;> first | exact LinkUnit.offer_offered _ x | exact .refl _
  · cases n <;> rfl
  · cases n <;> exact h

theorem withFlag_posted (s : State) (f : ConditionFlag) : Posted s { s with flags := withFlag s.flags f } :=
  ⟨rfl, fun n => by cases n <;> exact .refl _, rfl, fun g h => flagSet_withFlag_of s.flags f g h⟩

theorem postRounds_posted (fuel : Nat) (targets : LinkSet) (x : Notice) (s : State) :
    Posted s (State.postRounds fuel targets x s) := by
  induction fuel generalizing targets x s with
  | zero =>
    unfold State.postRounds
    dsimp only
    have hlose : ∀ (n : Link) (d : Bool) (t : State), Posted s t →
        Posted s (if (!d || flagSet t.flags (.queueLoss n)) = true then t
          else { t with flags := withFlag t.flags (.queueLoss n) }) := by
      intro n d t h
      split
      · exact h
      · exact h.trans (withFlag_posted t _)
    apply hlose
    apply hlose
    have h1 : Posted s (if targets.l0 = true then s.offer .link0 x else (s, false)).1 := by
      split
      · exact offer_posted s _ x
      · exact .refl s
    split
    · exact h1.trans (offer_posted _ _ x)
    · exact h1
  | succ k ih =>
    unfold State.postRounds
    dsimp only
    have hlose : ∀ (n : Link) (d : Bool) (t : State), Posted s t →
        Posted s (if (!d || flagSet t.flags (.queueLoss n)) = true then t
          else State.postRounds k .both (.condition (withFlag t.flags (.queueLoss n)))
            { t with flags := withFlag t.flags (.queueLoss n) }) := by
      intro n d t h
      split
      · exact h
      · exact (h.trans (withFlag_posted t _)).trans (ih _ _ _)
    apply hlose
    apply hlose
    have h1 : Posted s (if targets.l0 = true then s.offer .link0 x else (s, false)).1 := by
      split
      · exact offer_posted s _ x
      · exact .refl s
    split
    · exact h1.trans (offer_posted _ _ x)
    · exact h1

/-- Queuing a notice changes the links and the condition flags alone (R175, R178). -/
theorem post_posted (s : State) (targets : LinkSet) (x : Notice) : Posted s (s.post targets x) := postRounds_posted _ _ _ _

/-- Queuing a notice sets no flag but QUEUE_LOSS, and clears none (R175). -/
theorem post_flags_other (s : State) (targets : LinkSet) (x : Notice) (g : ConditionFlag) (hg : ∀ n, g ≠ .queueLoss n) :
    flagSet (s.post targets x).flags g = flagSet s.flags g := by
  suffices h : ∀ (fuel : Nat) (targets : LinkSet) (x : Notice) (s : State),
      flagSet (State.postRounds fuel targets x s).flags g = flagSet s.flags g from h _ _ _ _
  intro fuel
  induction fuel with
  | zero =>
    intro targets x s
    unfold State.postRounds
    dsimp only
    repeat' split
    all_goals simp only [offer_flags, flagSet_withFlag_ne _ (hg _)]
  | succ k ih =>
    intro targets x s
    unfold State.postRounds
    dsimp only
    repeat' split
    all_goals simp only [ih, offer_flags, flagSet_withFlag_ne _ (hg _)]

/-- Setting a condition flag changes the links and the condition flags alone (R178). -/
theorem setFlag_posted (s : State) (f : ConditionFlag) : Posted s (s.setFlag f) := by
  unfold State.setFlag
  split
  · exact .refl s
  · exact (withFlag_posted s f).trans (post_posted _ _ _)

/-- A flag set by its cause is set (R178). -/
theorem setFlag_sets (s : State) (f : ConditionFlag) : flagSet (s.setFlag f).flags f = true := by
  unfold State.setFlag
  split
  · assumption
  · exact (post_posted _ _ _).flags f (flagSet_withFlag_self _ _)

theorem postSettings_posted (s : State) (n : Link) (g : SettingsGroup) (values : List Byte) :
    Posted s (s.postSettings n g values) := post_posted _ _ _

end Sys2Proof.Machine
end

