-- ==== Sys2Proof/Laws/Resolver.lean ====
section
/-! SUPPORT. What the resolver's and the menu controller's shared operations can do: the relation Resolved, and that it holds of
outcomes, of the ends and beginnings of attempts and of stack operations. -/

namespace Sys2Proof.Machine

/-- What an outcome, or the end or beginning of an attempt, leaves as it was, and what it keeps (R98 to R119, R134 to R139). -/
structure Resolved (s t : State) : Prop where
  same : t =
    { s with
      res := t.res, menu := t.menu, dir := { s.dir with echoes := t.dir.echoes }, links := t.links, flags := t.flags,
      stats := t.stats }
  unit : ∀ n, (s.unit n).Offered (t.unit n)
  rate : t.links.rate = s.links.rate
  flags : ∀ f, flagSet s.flags f = true → flagSet t.flags f = true
  menuSame : t.menu = { s.menu with next := t.menu.next, current := t.menu.current }
  params : t.res.n = s.res.n ∧ t.res.t = s.res.t ∧ t.res.d = s.res.d
  tally : s.res.tally.length ≤ Config.tallySize → t.res.tally.length ≤ Config.tallySize
  echoes : s.dir.echoes.length ≤ Config.echoListSize → t.dir.echoes.length ≤ Config.echoListSize
  next : s.menu.next.length ≤ Config.stackSize → t.menu.next.length ≤ Config.stackSize
  current : s.menu.next.length ≤ Config.stackSize → s.menu.current.length ≤ Config.stackSize →
    t.menu.current.length ≤ Config.stackSize
  dark : s.port.mode = .dark → s.menu.current = s.menu.next → t.menu.current = t.menu.next
  lit : s.port.mode ≠ .dark → t.menu.current = s.menu.current
  counters : t.stats.frames = s.stats.frames ∧ t.stats.hits = s.stats.hits ∧ t.stats.vectors = s.stats.vectors

section Fields
variable {s t : State} (h : Resolved s t)
include h
theorem Resolved.port : t.port = s.port := (congrArg State.port h.same :)
theorem Resolved.hist : t.hist = s.hist := (congrArg State.hist h.same :)
theorem Resolved.pen : t.pen = s.pen := (congrArg State.pen h.same :)
theorem Resolved.corr : t.corr = s.corr := (congrArg State.corr h.same :)
theorem Resolved.filt : t.filt = s.filt := (congrArg State.filt h.same :)
theorem Resolved.cross : t.cross = s.cross := (congrArg State.cross h.same :)
theorem Resolved.coord : t.coord = s.coord := (congrArg State.coord h.same :)
theorem Resolved.answerOut : t.answerOut = s.answerOut := (congrArg State.answerOut h.same :)
theorem Resolved.pending : t.pending = s.pending := (congrArg State.pending h.same :)
theorem Resolved.dir : t.dir = { s.dir with echoes := t.dir.echoes } := (congrArg State.dir h.same :)
end Fields

theorem Resolved.refl (s : State) : Resolved s s where
  same := rfl
  unit := fun _ => .refl _
  rate := rfl
  flags := fun _ => id
  menuSame := rfl
  params := ⟨rfl, rfl, rfl⟩
  tally := id
  echoes := id
  next := id
  current := fun _ => id
  dark := fun _ => id
  lit := fun _ => rfl
  counters := ⟨rfl, rfl, rfl⟩

theorem Resolved.trans {s t u : State} (h : Resolved s t) (k : Resolved t u) : Resolved s u where
  same := by
    have e := k.same
    rw [h.same] at e
    exact e
  unit := fun n => (h.unit n).trans (k.unit n)
  rate := k.rate.trans h.rate
  flags := fun f c => k.flags f (h.flags f c)
  menuSame := by
    have e := k.menuSame
    rw [h.menuSame] at e
    exact e
  params := ⟨k.params.1.trans h.params.1, k.params.2.1.trans h.params.2.1, k.params.2.2.trans h.params.2.2⟩
  tally := fun c => k.tally (h.tally c)
  echoes := fun c => k.echoes (h.echoes c)
  next := fun c => k.next (h.next c)
  current := fun c d => k.current (h.next c) (h.current c d)
  dark := fun c d => k.dark (by rw [h.port]; exact c) (h.dark c d)
  lit := fun c => (k.lit (by rw [h.port]; exact c)).trans (h.lit c)
  counters := ⟨k.counters.1.trans h.counters.1, k.counters.2.1.trans h.counters.2.1, k.counters.2.2.trans h.counters.2.2⟩

theorem Posted.resolved {s t : State} (h : Posted s t) : Resolved s t where
  same := by
    rw [h.res, h.menu, h.dir, h.stats]
    exact h.same
  unit := h.unit
  rate := h.rate
  flags := h.flags
  menuSame := by rw [h.menu]
  params := by rw [h.res]; exact ⟨rfl, rfl, rfl⟩
  tally := by rw [h.res]; exact id
  echoes := by rw [h.dir]; exact id
  next := by rw [h.menu]; exact id
  current := by rw [h.menu]; exact fun _ => id
  dark := by rw [h.menu]; exact fun _ => id
  lit := by rw [h.menu]; exact fun _ => rfl
  counters := by rw [h.stats]; exact ⟨rfl, rfl, rfl⟩

/-- A change of the resolver's own state that keeps its parameters and its tally's bound. -/
theorem resolved_of_res (s : State) (r : Resolver) (hn : r.n = s.res.n ∧ r.t = s.res.t ∧ r.d = s.res.d)
    (ht : s.res.tally.length ≤ Config.tallySize → r.tally.length ≤ Config.tallySize) : Resolved s { s with res := r } where
  same := rfl
  unit := fun n => by cases n <;> exact .refl _
  rate := rfl
  flags := fun _ => id
  menuSame := rfl
  params := hn
  tally := ht
  echoes := id
  next := id
  current := fun _ => id
  dark := fun _ => id
  lit := fun _ => rfl
  counters := ⟨rfl, rfl, rfl⟩

/-- A counter other than FRAMES, HITS and VECTORS counted. -/
theorem count_resolved (s : State) (c : Counter) (hf : c ≠ .frames) (hh : c ≠ .hits) (hv : c ≠ .vectors) :
    Resolved s (s.count c) where
  same := rfl
  unit := fun n => by cases n <;> exact .refl _
  rate := rfl
  flags := fun _ => id
  menuSame := rfl
  params := ⟨rfl, rfl, rfl⟩
  tally := id
  echoes := id
  next := id
  current := fun _ => id
  dark := fun _ => id
  lit := fun _ => rfl
  counters := by
    cases c <;>
      first
      | exact absurd rfl hf
      | exact absurd rfl hh
      | exact absurd rfl hv
      | exact ⟨rfl, rfl, rfl⟩

theorem addEcho_length (length seg : Nat) (list : List Echo) (h : list.length ≤ Config.echoListSize) :
    (addEcho length seg list).length ≤ Config.echoListSize := by
  have hf : (list.filter (fun e => e.seg != seg)).length ≤ Config.echoListSize :=
    Nat.le_trans (List.length_filter_le _ _) h
  unfold addEcho
  split
  · exact h
  · dsimp only
    split
    · rename_i hl
      rw [List.length_append]
      exact hl
    · rw [List.length_append, List.length_tail]
      simp only [Config.echoListSize, List.length_cons, List.length_nil] at *
      omega

theorem echo_resolved (s : State) (seg : Nat) : Resolved s (s.echo seg) where
  same := rfl
  unit := fun n => by cases n <;> exact .refl _
  rate := rfl
  flags := fun _ => id
  menuSame := rfl
  params := ⟨rfl, rfl, rfl⟩
  tally := id
  echoes := addEcho_length _ _ _
  next := id
  current := fun _ => id
  dark := fun _ => id
  lit := fun _ => rfl
  counters := ⟨rfl, rfl, rfl⟩

theorem setMode_resolved (s : State) (m : PickMode) (owner : LinkSet) : Resolved s (s.setMode m owner) :=
  (resolved_of_res s { s.res with mode := m, modeOwner := owner } ⟨rfl, rfl, rfl⟩ id).trans (post_posted _ _ _).resolved

/-! ## Page stacks -/

theorem stackOp_length (op : StackOp) (stack : List (Fin 15)) (h : stack.length ≤ Config.stackSize) :
    (op.apply stack).length ≤ Config.stackSize := by
  cases op with
  | push p =>
    simp only [StackOp.apply, List.length_cons, List.length_take, Config.stackSize] at *
    omega
  | back =>
    simp only [StackOp.apply, List.length_tail]
    exact Nat.le_trans (Nat.sub_le _ _) h
  | home => exact Nat.zero_le _

/-- The copy of the next stack makes the two stacks equal and tells of a new page (R136, R138). -/
theorem copyStack_posted (s : State) :
    Posted { s with menu := { s.menu with current := s.menu.next } } s.copyStack := by
  unfold State.copyStack
  dsimp only
  split
  · exact .refl _
  · exact post_posted _ _ _

theorem copyStack_menu (s : State) : s.copyStack.menu = { s.menu with current := s.menu.next } := (copyStack_posted s).menu

/-- A stack operation (R134). -/
theorem stackOp_menu (s : State) (op : StackOp) :
    (s.stackOp op).menu =
      { s.menu with
        next := op.apply s.menu.next
        current := if s.port.mode = .dark then op.apply s.menu.next else s.menu.current } := by
  unfold State.stackOp
  dsimp only
  split
  · rw [copyStack_menu]
  · rfl

theorem stackOp_posted (s : State) (op : StackOp) : Posted { s with menu := (s.stackOp op).menu } (s.stackOp op) := by
  have hm := stackOp_menu s op
  unfold State.stackOp at hm ⊢
  dsimp only at hm ⊢
  split
  · have h := copyStack_posted { s with menu := { s.menu with next := op.apply s.menu.next } }
    rw [copyStack_menu]
    exact h
  · exact .refl _

/-- A change of the two stacks alone. -/
theorem resolved_of_stacks (s : State) (m : Menu) (hm : m = { s.menu with next := m.next, current := m.current })
    (hn : s.menu.next.length ≤ Config.stackSize → m.next.length ≤ Config.stackSize)
    (hc : s.menu.next.length ≤ Config.stackSize → s.menu.current.length ≤ Config.stackSize →
      m.current.length ≤ Config.stackSize)
    (hd : s.port.mode = .dark → s.menu.current = s.menu.next → m.current = m.next)
    (hl : s.port.mode ≠ .dark → m.current = s.menu.current) : Resolved s { s with menu := m } where
  same := rfl
  unit := fun n => by cases n <;> exact .refl _
  rate := rfl
  flags := fun _ => id
  menuSame := hm
  params := ⟨rfl, rfl, rfl⟩
  tally := id
  echoes := id
  next := hn
  current := hc
  dark := hd
  lit := hl
  counters := ⟨rfl, rfl, rfl⟩

theorem stackOp_resolved (s : State) (op : StackOp) : Resolved s (s.stackOp op) := by
  refine Resolved.trans ?_ (stackOp_posted s op).resolved
  rw [stackOp_menu]
  refine resolved_of_stacks s _ rfl (stackOp_length op _) (fun h k => ?_) (fun h _ => ?_) (fun h => ?_)
  · dsimp only
    split
    · exact stackOp_length op _ h
    · exact k
  · dsimp only; rw [if_pos h]
  · dsimp only; rw [if_neg h]

/-! ## Outcomes -/

theorem runMenuAction_resolved (s : State) (seg : Nat) : Resolved s (s.runMenuAction seg) := by
  unfold State.runMenuAction
  split
  · exact .refl s
  · split
    · exact .refl s
    · split
      · exact .refl s
      · exact stackOp_resolved _ _
      · exact stackOp_resolved _ _
      · exact stackOp_resolved _ _
      · exact setMode_resolved _ _ _

theorem menuOutcome_resolved (s : State) (seg : Nat) (route : LinkSet) (x : PickNotice) :
    Resolved s (s.menuOutcome seg route x) := by
  unfold State.menuOutcome
  refine Resolved.trans (t := if menuNotifies s seg then s.post route (.pick x) else s) ?_ ?_
  · split
    · exact (post_posted _ _ _).resolved
    · exact .refl s
  · exact ((count_resolved _ .picks (by decide) (by decide) (by decide)).trans (echo_resolved _ _)).trans
      (runMenuAction_resolved _ _)

theorem outcome_resolved (s : State) (d : Decision) : Resolved s (s.outcome d) := by
  cases d <;> unfold State.outcome <;> dsimp only
  case menu e => exact menuOutcome_resolved _ _ _ _
  case element e =>
    exact ((post_posted _ _ _).resolved.trans (count_resolved _ .picks (by decide) (by decide) (by decide))).trans
      (echo_resolved _ _)
  all_goals
    refine (post_posted _ _ _).resolved.trans (count_resolved _ _ ?_ ?_ ?_) <;> decide

theorem lostOutcome_resolved (s : State) (reason : PickReason) : Resolved s (s.lostOutcome reason) :=
  (post_posted _ _ _).resolved.trans (count_resolved _ .lost (by decide) (by decide) (by decide))

/-! ## Attempts -/

theorem setUpAttempt_resolved (s : State) : Resolved s s.setUpAttempt :=
  Resolved.trans (t := { s with res := s.setUpAttempt.res })
    (resolved_of_res s _ ⟨rfl, rfl, rfl⟩ (fun _ => Nat.zero_le _))
    (count_resolved _ .attempts (by decide) (by decide) (by decide))

theorem endAttempt_resolved (s : State) (a : AttemptState) : Resolved s (s.endAttempt a) :=
  resolved_of_res s _ ⟨rfl, rfl, rfl⟩ (fun _ => Nat.zero_le _)

theorem tipDownIdle_resolved (s : State) : Resolved s s.tipDownIdle := by
  unfold State.tipDownIdle
  split
  · exact .refl s
  · dsimp only
    split
    · exact ((setUpAttempt_resolved s).trans (lostOutcome_resolved _ _)).trans (endAttempt_resolved _ _)
    · exact setUpAttempt_resolved s

theorem afterOutcome_resolved (s : State) : Resolved s s.afterOutcome := by
  unfold State.afterOutcome
  split
  · exact endAttempt_resolved _ _
  · split
    · exact (endAttempt_resolved _ _).trans (tipDownIdle_resolved _)
    · exact endAttempt_resolved _ _

theorem resolve_resolved (s : State) : Resolved s s.resolve := (outcome_resolved s _).trans (afterOutcome_resolved _)

theorem loseAttempt_resolved (s : State) (reason : PickReason) : Resolved s (s.loseAttempt reason) := by
  unfold State.loseAttempt
  split
  · exact (lostOutcome_resolved s _).trans (afterOutcome_resolved _)
  · exact (lostOutcome_resolved s _).trans (afterOutcome_resolved _)
  · exact .refl s
  · exact .refl s

theorem resolverCount_resolved (s : State) : Resolved s (resolverCount s) := by
  unfold resolverCount
  split
  · dsimp only
    split
    · refine Resolved.trans ?_ (resolve_resolved _)
      exact resolved_of_res s _ ⟨rfl, rfl, rfl⟩ id
    · exact resolved_of_res s _ ⟨rfl, rfl, rfl⟩ id
  · exact .refl s

theorem hitDone_resolved (s : State) : Resolved s s.hitDone := by
  unfold State.hitDone
  split
  · dsimp only
    split
    · refine Resolved.trans ?_ (resolve_resolved _)
      exact resolved_of_res s _ ⟨rfl, rfl, rfl⟩ id
    · exact resolved_of_res s _ ⟨rfl, rfl, rfl⟩ id
  · exact .refl s

theorem tipUp_resolved (s : State) : Resolved s s.tipUp := by
  unfold State.tipUp
  split
  · dsimp only
    split
    · refine Resolved.trans ?_ (resolve_resolved _)
      exact resolved_of_res s _ ⟨rfl, rfl, rfl⟩ id
    · exact resolved_of_res s _ ⟨rfl, rfl, rfl⟩ id
  · exact endAttempt_resolved _ _
  · exact .refl s
  · exact .refl s

theorem tipDown_resolved (s : State) : Resolved s s.tipDown := by
  unfold State.tipDown
  split
  · exact tipDownIdle_resolved s
  · exact .refl s
  · exact .refl s
  · exact .refl s

/-- An attempt that has ended is not GATHERING or CLOSING while the port is DARK (R98, R103). -/
theorem afterOutcome_dark (s : State) (h : s.port.mode = .dark) :
    s.afterOutcome.res.attempt = .idle ∨ s.afterOutcome.res.attempt = .held := by
  unfold State.afterOutcome
  split
  · exact .inl rfl
  · split
    · unfold State.tipDownIdle
      split
      · exact .inl rfl
      · dsimp only
        rw [if_pos (show (s.endAttempt .idle).port.mode = .dark from h)]
        by_cases e : (s.endAttempt .idle).pen.tipDebounced = .down
        · rw [if_pos e]; exact .inr rfl
        · rw [if_neg e]; exact .inl rfl
    · exact .inr rfl

end Sys2Proof.Machine
end

