-- ==== Sys2Proof/Laws/Correlator.lean ====
section
/-! SUPPORT. What the correlator's shared operations can do: the relation Correlated, that it holds of the correlation of hits and of
the release test, and the bounds of what one hit gives. -/

namespace Sys2Proof.Machine

/-- What the correlation of hits leaves as it was, and what it keeps (R76 to R102). -/
structure Correlated (s t : State) : Prop where
  same : t =
    { s with
      res := t.res, menu := t.menu, dir := { s.dir with echoes := t.dir.echoes }, links := t.links, flags := t.flags,
      stats := t.stats, cross := t.cross, pen := { s.pen with waiting := t.pen.waiting } }
  unit : ∀ n, (s.unit n).Offered (t.unit n)
  rate : t.links.rate = s.links.rate
  flags : ∀ f, flagSet s.flags f = true → flagSet t.flags f = true
  menuSame : t.menu = { s.menu with next := t.menu.next, current := t.menu.current, sums := t.menu.sums }
  params : t.res.n = s.res.n ∧ t.res.t = s.res.t ∧ t.res.d = s.res.d
  tally : s.res.tally.length ≤ Config.tallySize → t.res.tally.length ≤ Config.tallySize
  echoes : s.dir.echoes.length ≤ Config.echoListSize → t.dir.echoes.length ≤ Config.echoListSize
  next : s.menu.next.length ≤ Config.stackSize → t.menu.next.length ≤ Config.stackSize
  current : s.menu.next.length ≤ Config.stackSize → s.menu.current.length ≤ Config.stackSize →
    t.menu.current.length ≤ Config.stackSize
  dark : s.port.mode = .dark → s.menu.current = s.menu.next → t.menu.current = t.menu.next
  lit : s.port.mode ≠ .dark → t.menu.current = s.menu.current
  counters : t.stats.frames = s.stats.frames ∧ t.stats.hits = s.stats.hits ∧ t.stats.vectors = s.stats.vectors
  sums : s.menu.sums.length ≤ Config.frameSumsSize → t.menu.sums.length ≤ Config.frameSumsSize
  waiting : t.pen.waiting.length ≤ s.pen.waiting.length
  crossSame : t.cross =
    { s.cross with hSum := t.cross.hSum, hCount := t.cross.hCount, vSum := t.cross.vSum, vCount := t.cross.vCount }

section Fields
variable {s t : State} (h : Correlated s t)
include h
theorem Correlated.port : t.port = s.port := (congrArg State.port h.same :)
theorem Correlated.hist : t.hist = s.hist := (congrArg State.hist h.same :)
theorem Correlated.pen : t.pen = { s.pen with waiting := t.pen.waiting } := (congrArg State.pen h.same :)
theorem Correlated.corr : t.corr = s.corr := (congrArg State.corr h.same :)
theorem Correlated.filt : t.filt = s.filt := (congrArg State.filt h.same :)
theorem Correlated.coord : t.coord = s.coord := (congrArg State.coord h.same :)
theorem Correlated.answerOut : t.answerOut = s.answerOut := (congrArg State.answerOut h.same :)
theorem Correlated.pending : t.pending = s.pending := (congrArg State.pending h.same :)
theorem Correlated.dir : t.dir = { s.dir with echoes := t.dir.echoes } := (congrArg State.dir h.same :)
end Fields

theorem Correlated.trans {s t u : State} (h : Correlated s t) (k : Correlated t u) : Correlated s u where
  same := by
    have e := k.same
    rw [h.same] at e
    exact e
  unit := fun n => (h.unit n).trans (k.unit n)
  rate := k.rate.trans h.rate
  flags := fun f c => k.flags f (h.flags f c)
  menuSame := by
    have e := k.menuSame
    rw [h.menuSame] at e
    exact e
  params := ⟨k.params.1.trans h.params.1, k.params.2.1.trans h.params.2.1, k.params.2.2.trans h.params.2.2⟩
  tally := fun c => k.tally (h.tally c)
  echoes := fun c => k.echoes (h.echoes c)
  next := fun c => k.next (h.next c)
  current := fun c d => k.current (h.next c) (h.current c d)
  dark := fun c d => k.dark (by rw [h.port]; exact c) (h.dark c d)
  lit := fun c => (k.lit (by rw [h.port]; exact c)).trans (h.lit c)
  counters := ⟨k.counters.1.trans h.counters.1, k.counters.2.1.trans h.counters.2.1, k.counters.2.2.trans h.counters.2.2⟩
  sums := fun c => k.sums (h.sums c)
  waiting := Nat.le_trans k.waiting h.waiting
  crossSame := by
    have e := k.crossSame
    rw [h.crossSame] at e
    exact e

theorem Resolved.correlated {s t : State} (h : Resolved s t) : Correlated s t where
  same := by
    rw [h.pen, h.cross]
    exact h.same
  unit := h.unit
  rate := h.rate
  flags := h.flags
  menuSame := by
    have e := h.menuSame
    rw [e]
  params := h.params
  tally := h.tally
  echoes := h.echoes
  next := h.next
  current := h.current
  dark := h.dark
  lit := h.lit
  counters := h.counters
  sums := by rw [h.menuSame]; exact id
  waiting := Nat.le_of_eq (by rw [h.pen])
  crossSame := by rw [h.cross]

theorem Correlated.refl (s : State) : Correlated s s := (Resolved.refl s).correlated

/-! ## What a candidate set does -/

theorem addToSum_length (c : Candidate) (gap : Bool) (l : List FrameSum) : (addToSum c gap l).length = l.length := by
  induction l with
  | nil => rfl
  | cons e rest ih =>
    unfold addToSum
    split
    · rfl
    · simp only [List.length_cons, ih]

theorem addCandidateToSums_length (gap : Bool) (l : List FrameSum) (c : Candidate)
    (h : l.length ≤ Config.frameSumsSize) : (addCandidateToSums gap l c).length ≤ Config.frameSumsSize := by
  unfold addCandidateToSums
  split
  · exact h
  · split
    · rw [addToSum_length]; exact h
    · split
      · rename_i hl
        rw [List.length_append]
        exact hl
      · exact h

theorem addSet_sums_length (m : Menu) (set : List Candidate) (gap : Bool) (h : m.sums.length ≤ Config.frameSumsSize) :
    (m.addSet set gap).sums.length ≤ Config.frameSumsSize := by
  show (set.foldl (addCandidateToSums gap) m.sums).length ≤ _
  generalize m.sums = l at h
  induction set generalizing l with
  | nil => exact h
  | cons c rest ih => exact ih _ (addCandidateToSums_length gap l c h)

theorem contributeTo_length (frame : Nat) (c : Candidate) (l : List TallyEntry) :
    (contributeTo frame c l).length = l.length := by
  induction l with
  | nil => rfl
  | cons e rest ih =>
    unfold contributeTo
    split
    · rfl
    · simp only [List.length_cons, ih]

/-- A contribution goes to the first entry of the record's key (R109). -/
theorem contributeTo_of_split (frame : Nat) (c : Candidate) (before : List TallyEntry) (e : TallyEntry) (after : List TallyEntry)
    (he : e.key = c.key) (hb : ∀ f ∈ before, f.key ≠ c.key) :
    contributeTo frame c (before ++ e :: after) = before ++ e.contribute frame c :: after := by
  induction before with
  | nil => exact if_pos he
  | cons f rest ih =>
    rw [List.cons_append, contributeTo, if_neg (hb f List.mem_cons_self), ih (fun g hg => hb g (List.mem_cons_of_mem _ hg)),
      List.cons_append]

/-- A vote goes to the first entry of its segment (R140). -/
theorem addToSum_of_split (c : Candidate) (gap : Bool) (before : List FrameSum) (e : FrameSum) (after : List FrameSum)
    (he : e.seg = c.key.seg) (hb : ∀ f ∈ before, f.seg ≠ c.key.seg) :
    addToSum c gap (before ++ e :: after) = before ++ e.add c gap :: after := by
  induction before with
  | nil => exact if_pos he
  | cons f rest ih =>
    rw [List.cons_append, addToSum, if_neg (hb f List.mem_cons_self), ih (fun g hg => hb g (List.mem_cons_of_mem _ hg)),
      List.cons_append]

/-- What a candidate record added to the tally keeps (R108, R109). -/
theorem addCandidate_keeps (r : Resolver) (frame : Nat) (c : Candidate) :
    ((r.addCandidate frame c).n = r.n ∧ (r.addCandidate frame c).t = r.t ∧ (r.addCandidate frame c).d = r.d) ∧
      (r.tally.length ≤ Config.tallySize → (r.addCandidate frame c).tally.length ≤ Config.tallySize) := by
  unfold Resolver.addCandidate
  split
  · exact ⟨⟨rfl, rfl, rfl⟩, fun h => by dsimp only; rw [contributeTo_length]; exact h⟩
  · split
    · rename_i hl
      refine ⟨⟨rfl, rfl, rfl⟩, fun _ => ?_⟩
      dsimp only
      rw [List.length_append]
      exact hl
    · exact ⟨⟨rfl, rfl, rfl⟩, id⟩

/-- What a candidate set added to the tally keeps (R99). -/
theorem addSet_keeps (r : Resolver) (frame : Nat) (set : List Candidate) (gap : Bool) :
    ((r.addSet frame set gap).n = r.n ∧ (r.addSet frame set gap).t = r.t ∧ (r.addSet frame set gap).d = r.d) ∧
      (r.tally.length ≤ Config.tallySize → (r.addSet frame set gap).tally.length ≤ Config.tallySize) := by
  unfold Resolver.addSet
  generalize hr : { r with gap := r.gap || gap } = q
  have hq : (q.n = r.n ∧ q.t = r.t ∧ q.d = r.d) ∧ (r.tally.length ≤ Config.tallySize → q.tally.length ≤ Config.tallySize) := by
    subst hr; exact ⟨⟨rfl, rfl, rfl⟩, id⟩
  clear hr
  induction set generalizing q with
  | nil => exact hq
  | cons c rest ih =>
    refine ih (q.addCandidate frame c) ?_
    have k := addCandidate_keeps q frame c
    exact ⟨⟨k.1.1.trans hq.1.1, k.1.2.1.trans hq.1.2.1, k.1.2.2.trans hq.1.2.2⟩, fun h => k.2 (hq.2 h)⟩

theorem handOff_correlated (s : State) (set : List Candidate) (gap : Bool) : Correlated s (s.handOff set gap) := by
  unfold State.handOff
  split
  · exact
      { same := rfl, unit := fun n => by cases n <;> exact .refl _, rate := rfl, flags := fun _ => id, menuSame := rfl,
        params := ⟨rfl, rfl, rfl⟩, tally := id, echoes := id, next := id, current := fun _ => id, dark := fun _ => id,
        lit := fun _ => rfl, counters := ⟨rfl, rfl, rfl⟩, sums := addSet_sums_length _ _ _, waiting := Nat.le_refl _,
        crossSame := rfl }
  · have k := addSet_keeps s.res s.corr.frame set gap
    exact (resolved_of_res s _ k.1 k.2).correlated
  · have k := addSet_keeps s.res s.corr.frame set gap
    exact (resolved_of_res s _ k.1 k.2).correlated
  · exact .refl s

/-! ## Arm points -/

theorem armPoint_same (c : Cross) (p : Stroke) (at_ : ScreenPoint) :
    c.armPoint p at_ =
      { c with
        hSum := (c.armPoint p at_).hSum, hCount := (c.armPoint p at_).hCount, vSum := (c.armPoint p at_).vSum,
        vCount := (c.armPoint p at_).vCount } := by
  unfold Cross.armPoint
  split
  · rfl
  · split
    · rfl
    · split <;> rfl

theorem armPoints_same (c : Cross) (tc : Int) (kept : List ReadStroke) :
    c.armPoints tc kept =
      { c with
        hSum := (c.armPoints tc kept).hSum, hCount := (c.armPoints tc kept).hCount, vSum := (c.armPoints tc kept).vSum,
        vCount := (c.armPoints tc kept).vCount } := by
  unfold Cross.armPoints
  induction kept generalizing c with
  | nil => rfl
  | cons r rest ih =>
    rw [List.foldl_cons]
    split
    · have e := ih (c.armPoint r.stroke (r.beamPoint tc))
      rw [armPoint_same c] at e ⊢
      exact e
    · exact ih c

/-! ## The correlation of hits -/

theorem correlated_of_cross (s : State) (c : Cross)
    (h : c = { s.cross with hSum := c.hSum, hCount := c.hCount, vSum := c.vSum, vCount := c.vCount }) :
    Correlated s { s with cross := c } where
  same := rfl
  unit := fun n => by cases n <;> exact .refl _
  rate := rfl
  flags := fun _ => id
  menuSame := rfl
  params := ⟨rfl, rfl, rfl⟩
  tally := id
  echoes := id
  next := id
  current := fun _ => id
  dark := fun _ => id
  lit := fun _ => rfl
  counters := ⟨rfl, rfl, rfl⟩
  sums := id
  waiting := Nat.le_refl _
  crossSame := h

theorem correlated_of_waiting (s : State) (w : List Nat) (h : w.length ≤ s.pen.waiting.length) :
    Correlated s { s with pen := { s.pen with waiting := w } } where
  same := rfl
  unit := fun n => by cases n <;> exact .refl _
  rate := rfl
  flags := fun _ => id
  menuSame := rfl
  params := ⟨rfl, rfl, rfl⟩
  tally := id
  echoes := id
  next := id
  current := fun _ => id
  dark := fun _ => id
  lit := fun _ => rfl
  counters := ⟨rfl, rfl, rfl⟩
  sums := id
  waiting := h
  crossSame := rfl

theorem readHit_correlated (s : State) (tc : Int) : Correlated s (s.readHit tc) := by
  have hc := correlated_of_cross s _ (armPoints_same s.cross tc (keptRecords tc s.corr.w s.hist.ring))
  unfold State.readHit
  dsimp only
  split
  · split
    · exact hc
    · exact hc.trans (count_resolved _ .unmatched (by decide) (by decide) (by decide)).correlated
  · exact hc.trans (handOff_correlated _ _ _)

/-- The correlation of one hit (R76 to R102). -/
theorem correlateHit_correlated (s : State) (th : Nat) : Correlated s (s.correlateHit th) := by
  unfold State.correlateHit
  dsimp only
  split
  · exact (((setFlag_posted s _).resolved.trans (count_resolved _ .unmatched (by decide) (by decide) (by decide))).trans
      (hitDone_resolved _)).correlated
  · exact (readHit_correlated s _).trans (hitDone_resolved _).correlated

theorem hitDone_pen (s : State) : s.hitDone.pen = s.pen := (hitDone_resolved s).pen

theorem readHit_waiting (s : State) (tc : Int) : (s.readHit tc).pen = s.pen := by
  unfold State.readHit
  dsimp only
  split
  · split <;> rfl
  · unfold State.handOff
    dsimp only
    split <;> rfl

/-- The correlation of a hit leaves the waiting-hits list to the taker. -/
theorem correlateHit_pen (s : State) (th : Nat) : (s.correlateHit th).pen = s.pen := by
  unfold State.correlateHit
  dsimp only
  split
  · rw [hitDone_pen]
    exact (setFlag_posted s _).pen
  · rw [hitDone_pen, readHit_waiting]

theorem releaseWaiting_correlated (list : List Nat) (s : State) (h : s.pen.waiting = list) :
    Correlated s (releaseWaiting list s) := by
  induction list generalizing s with
  | nil => exact .refl s
  | cons th rest ih =>
    unfold releaseWaiting
    split
    · have h1 := correlated_of_waiting s rest (by rw [h]; exact Nat.le_succ _)
      have h2 := correlateHit_correlated { s with pen := { s.pen with waiting := rest } } th
      exact (h1.trans h2).trans (ih _ (congrArg Pen.waiting (correlateHit_pen _ th)))
    · exact .refl s

/-- The release test (R78). -/
theorem releaseTest_correlated (s : State) : Correlated s s.releaseTest := releaseWaiting_correlated _ s rfl

theorem correlateWaiting_correlated (list : List Nat) (s : State) (h : s.pen.waiting = list) :
    Correlated s (correlateWaiting list s) ∧ (correlateWaiting list s).pen.waiting = [] := by
  induction list generalizing s with
  | nil => exact ⟨.refl s, h⟩
  | cons th rest ih =>
    unfold correlateWaiting
    have h1 := correlated_of_waiting s rest (by rw [h]; exact Nat.le_succ _)
    have h2 := correlateHit_correlated { s with pen := { s.pen with waiting := rest } } th
    have h3 := ih _ (congrArg Pen.waiting (correlateHit_pen { s with pen := { s.pen with waiting := rest } } th))
    exact ⟨(h1.trans h2).trans h3.1, h3.2⟩

/-! ## Bounds of one hit -/

/-- At most four candidate records are kept (R82). -/
theorem keptRecords_length (tc : Int) (w : Nat) (ring : List HistoryRecord) :
    (keptRecords tc w ring).length ≤ Config.candidateCap := by
  unfold keptRecords
  rw [List.length_take]
  exact Nat.min_le_left _ _

theorem firstOfKeys_length (l : List Keyed) : (firstOfKeys l).length ≤ l.length := by
  induction l with
  | nil => exact Nat.le_refl _
  | cons c rest ih =>
    unfold firstOfKeys
    exact Nat.succ_le_succ (Nat.le_trans (List.length_filter_le _ _) ih)

/-- At most four candidates come from one hit (R87). -/
theorem candidateSet_length (s : State) (tc : Int) (kept : List ReadStroke) :
    (s.candidateSet tc kept).length ≤ kept.length := by
  unfold State.candidateSet spreadWeight
  rw [List.length_map]
  exact Nat.le_trans (List.length_filterMap_le _ _)
    (Nat.le_trans (firstOfKeys_length _) (List.length_filterMap_le _ _))

end Sys2Proof.Machine
end

