-- ==== Sys2Proof/Laws/Directory.lean ====
section
/-! SUPPORT. The table of DEFINED entries: look-up after each table operation, and the form that every one of them keeps. -/

namespace Sys2Proof.Machine

/-! ## Look-up -/

theorem find_put_same (seg : Nat) (e : Entry) (d : Dir) : Dir.find (Dir.put seg e d) seg = some e := by
  induction d with
  | nil => simp [Dir.put, Dir.find]
  | cons p rest ih =>
    obtain ⟨k, f⟩ := p
    unfold Dir.put
    split
    · simp [Dir.find]
    · split
      · simp [Dir.find]
      · rename_i h
        unfold Dir.find
        rw [if_neg (fun c => h c.symm)]
        exact ih

theorem find_put_ne {seg k : Nat} (h : k ≠ seg) (e : Entry) (d : Dir) : Dir.find (Dir.put seg e d) k = Dir.find d k := by
  induction d with
  | nil => simp [Dir.put, Dir.find, Ne.symm h]
  | cons p rest ih =>
    obtain ⟨j, f⟩ := p
    unfold Dir.put
    split
    · conv => lhs; unfold Dir.find
      rw [if_neg (Ne.symm h)]
    · split
      · rename_i e1
        subst e1
        conv => lhs; unfold Dir.find
        conv => rhs; unfold Dir.find
        rw [if_neg (Ne.symm h), if_neg (Ne.symm h)]
      · conv => lhs; unfold Dir.find
        conv => rhs; unfold Dir.find
        rw [ih]

theorem find_put (seg k : Nat) (e : Entry) (d : Dir) :
    Dir.find (Dir.put seg e d) k = if k = seg then some e else Dir.find d k := by
  split
  · rename_i h; rw [h]; exact find_put_same seg e d
  · rename_i h; exact find_put_ne h e d

theorem find_remove (seg k : Nat) (d : Dir) :
    Dir.find (Dir.remove seg d) k = if k = seg then none else Dir.find d k := by
  induction d with
  | nil => simp [Dir.remove, Dir.find]
  | cons p rest ih =>
    obtain ⟨j, f⟩ := p
    unfold Dir.remove at ih ⊢
    rw [List.filter_cons]
    by_cases hj : j = seg
    · subst hj
      simp only [bne_self_eq_false, Bool.false_eq_true, if_false]
      rw [ih]
      split
      · rfl
      · rename_i h
        conv => rhs; unfold Dir.find
        rw [if_neg (Ne.symm h)]
    · have : (j != seg) = true := by simp [hj]
      simp only [this, if_true]
      conv => lhs; unfold Dir.find
      split
      · rename_i h
        subst h
        rw [if_neg hj]
        conv => rhs; unfold Dir.find
        rw [if_pos rfl]
      · rename_i h
        rw [ih]
        split
        · rfl
        · conv => rhs; unfold Dir.find
          rw [if_neg h]

theorem find_change (seg k : Nat) (f : Entry → Entry) (d : Dir) :
    Dir.find (Dir.change seg f d) k = if k = seg then (Dir.find d seg).map f else Dir.find d k := by
  unfold Dir.change
  split
  · rename_i e he
    rw [find_put, he]
    rfl
  · rename_i he
    split
    · rename_i h; rw [h, he]; rfl
    · rfl

/-! ## The form of the table -/

/-- The numbers of a table, strictly rising. -/
def Dir.rising (d : Dir) : Prop := (d.map (fun p => p.1)).Pairwise (fun a b => a < b)

/-- Every entry of a table is of a segment 0..1022 and has an owner. -/
def Dir.owned (d : Dir) : Prop := ∀ p ∈ d, p.1 < Config.crossSegment ∧ p.2.owner.isEmpty = false

theorem wf_iff (d : Dir) : Dir.wf d = true ↔ d.rising ∧ d.owned := by
  unfold Dir.wf Dir.rising Dir.owned
  simp only [Bool.and_eq_true, decide_eq_true_eq, List.all_eq_true, Bool.not_eq_true']

theorem put_keys (seg : Nat) (e : Entry) (d : Dir) (p : Nat × Entry) (h : p ∈ Dir.put seg e d) : p = (seg, e) ∨ p ∈ d := by
  induction d with
  | nil =>
    simp only [Dir.put, List.mem_cons, List.not_mem_nil, or_false] at h
    exact .inl h
  | cons q rest ih =>
    obtain ⟨k, f⟩ := q
    unfold Dir.put at h
    split at h
    · rcases List.mem_cons.1 h with h | h
      · exact .inl h
      · exact .inr h
    · split at h
      · rcases List.mem_cons.1 h with h | h
        · exact .inl h
        · exact .inr (List.mem_cons_of_mem _ h)
      · rcases List.mem_cons.1 h with h | h
        · exact .inr (h ▸ List.mem_cons_self)
        · rcases ih h with h | h
          · exact .inl h
          · exact .inr (List.mem_cons_of_mem _ h)

theorem rising_cons {k : Nat} {f : Entry} {rest : Dir} :
    Dir.rising ((k, f) :: rest) ↔ (∀ p ∈ rest, k < p.1) ∧ Dir.rising rest := by
  unfold Dir.rising
  rw [List.map_cons, List.pairwise_cons]
  constructor
  · rintro ⟨h, k⟩
    exact ⟨fun p hp => h _ (List.mem_map_of_mem hp), k⟩
  · rintro ⟨h, k⟩
    refine ⟨fun a ha => ?_, k⟩
    obtain ⟨p, hp, rfl⟩ := List.mem_map.1 ha
    exact h p hp

theorem put_rising (seg : Nat) (e : Entry) (d : Dir) (h : d.rising) : (Dir.put seg e d).rising := by
  induction d with
  | nil => exact List.pairwise_singleton _ _
  | cons q rest ih =>
    obtain ⟨k, f⟩ := q
    obtain ⟨hk, hr⟩ := rising_cons.1 h
    unfold Dir.put
    split
    · rename_i hlt
      refine rising_cons.2 ⟨fun p hp => ?_, h⟩
      rcases List.mem_cons.1 hp with hp | hp
      · subst hp; exact hlt
      · exact Nat.lt_trans hlt (hk p hp)
    · split
      · rename_i heq
        subst heq
        exact rising_cons.2 ⟨hk, hr⟩
      · rename_i h1 h2
        refine rising_cons.2 ⟨fun p hp => ?_, ih hr⟩
        rcases put_keys seg e rest p hp with hp | hp
        · subst hp
          show k < seg
          omega
        · exact hk p hp

theorem put_wf (seg : Nat) (e : Entry) (d : Dir) (h : Dir.wf d = true) (hs : seg < Config.crossSegment)
    (he : e.owner.isEmpty = false) : Dir.wf (Dir.put seg e d) = true := by
  obtain ⟨h1, h2⟩ := (wf_iff d).1 h
  refine (wf_iff _).2 ⟨put_rising seg e d h1, fun p hp => ?_⟩
  rcases put_keys seg e d p hp with hp | hp
  · subst hp; exact ⟨hs, he⟩
  · exact h2 p hp

theorem filter_wf (q : Nat × Entry → Bool) (d : Dir) (h : Dir.wf d = true) : Dir.wf (d.filter q) = true := by
  obtain ⟨h1, h2⟩ := (wf_iff d).1 h
  refine (wf_iff _).2 ⟨?_, fun p hp => h2 p (List.mem_filter.1 hp).1⟩
  unfold Dir.rising at h1 ⊢
  exact h1.sublist (List.filter_sublist.map _)

theorem remove_wf (seg : Nat) (d : Dir) (h : Dir.wf d = true) : Dir.wf (Dir.remove seg d) = true := filter_wf _ d h

theorem find_mem {d : Dir} {seg : Nat} {e : Entry} (h : Dir.find d seg = some e) : (seg, e) ∈ d := by
  induction d with
  | nil => exact nomatch h
  | cons p rest ih =>
    obtain ⟨k, f⟩ := p
    unfold Dir.find at h
    split at h
    · rename_i hk
      cases h
      rw [hk]
      exact List.mem_cons_self
    · exact List.mem_cons_of_mem _ (ih h)

theorem find_owned {d : Dir} {seg : Nat} {e : Entry} (hw : Dir.wf d = true) (h : Dir.find d seg = some e) :
    seg < Config.crossSegment ∧ e.owner.isEmpty = false := ((wf_iff d).1 hw).2 _ (find_mem h)

theorem change_wf (seg : Nat) (f : Entry → Entry) (d : Dir) (h : Dir.wf d = true)
    (hf : ∀ e : Entry, e.owner.isEmpty = false → (f e).owner.isEmpty = false) : Dir.wf (Dir.change seg f d) = true := by
  unfold Dir.change
  split
  · rename_i e he
    have k := find_owned h he
    exact put_wf seg _ d h k.1 (hf e k.2)
  · exact h

theorem disown_wf (seg : Nat) (n : Link) (d : Dir) (h : Dir.wf d = true) : Dir.wf (Dir.disown seg n d) = true := by
  unfold Dir.disown
  split
  · rename_i e he
    dsimp only
    split
    · exact remove_wf seg d h
    · rename_i hn
      exact put_wf seg _ d h (find_owned h he).1 (by simpa using hn)
  · exact h

theorem sweep_mem (n : Link) (d : Dir) (p : Nat × Entry) (h : p ∈ Dir.sweep n d) :
    (∃ q ∈ d, q.1 = p.1) ∧ p.2.owner.isEmpty = false := by
  induction d with
  | nil => exact nomatch h
  | cons q rest ih =>
    obtain ⟨k, e⟩ := q
    unfold Dir.sweep at h
    dsimp only at h
    split at h
    · obtain ⟨⟨q, hq, e1⟩, h2⟩ := ih h
      exact ⟨⟨q, List.mem_cons_of_mem _ hq, e1⟩, h2⟩
    · rename_i hn
      rcases List.mem_cons.1 h with h | h
      · subst h
        exact ⟨⟨(k, e), List.mem_cons_self, rfl⟩, by simpa using hn⟩
      · obtain ⟨⟨q, hq, e1⟩, h2⟩ := ih h
        exact ⟨⟨q, List.mem_cons_of_mem _ hq, e1⟩, h2⟩

theorem sweep_rising (n : Link) (d : Dir) (h : d.rising) : (Dir.sweep n d).rising := by
  induction d with
  | nil => exact h
  | cons q rest ih =>
    obtain ⟨k, e⟩ := q
    obtain ⟨hk, hr⟩ := rising_cons.1 h
    unfold Dir.sweep
    dsimp only
    split
    · exact ih hr
    · refine rising_cons.2 ⟨fun p hp => ?_, ih hr⟩
      obtain ⟨⟨q, hq, e1⟩, _⟩ := sweep_mem n rest p hp
      rw [← e1]
      exact hk q hq

/-- A release sweep keeps the table's form (R43). -/
theorem sweep_wf (n : Link) (d : Dir) (h : Dir.wf d = true) : Dir.wf (Dir.sweep n d) = true := by
  obtain ⟨h1, h2⟩ := (wf_iff d).1 h
  refine (wf_iff _).2 ⟨sweep_rising n d h1, fun p hp => ?_⟩
  obtain ⟨⟨q, hq, e1⟩, h3⟩ := sweep_mem n d p hp
  exact ⟨e1 ▸ (h2 q hq).1, h3⟩

theorem single_not_empty (n : Link) : (LinkSet.single n).isEmpty = false := by cases n <;> rfl

/-- A change keeps the table's form (R29 to R33). -/
theorem apply_wf (op : ChangeOp) (n : Link) (d : Dir) (h : Dir.wf d = true) (hn : op.named) :
    Dir.wf (op.apply n d) = true := by
  cases op with
  | define seg v =>
    refine put_wf seg _ d h (hn seg rfl) ?_
    unfold DefineValues.entry
    dsimp only
    split
    · rfl
    · exact single_not_empty n
  | set seg v => exact change_wf seg _ d h (fun e he => he)
  | share seg => exact change_wf seg _ d h (fun _ _ => rfl)
  | release seg => exact disown_wf seg n d h
  | menu seg b => exact change_wf seg _ d h (fun e he => he)
  | view v => exact h

/-! ## Directory work on the part's state -/

/-- What a piece of directory work leaves as it was (R37 to R43). -/
structure Directed (s t : State) : Prop where
  same : t = { s with dir := t.dir, coord := { s.coord with view := t.coord.view }, links := t.links, flags := t.flags }
  unit : ∀ n, (s.unit n).Offered (t.unit n)
  rate : t.links.rate = s.links.rate
  flags : ∀ f, flagSet s.flags f = true → flagSet t.flags f = true
  dirSame : t.dir =
    { s.dir with
      entries := t.dir.entries, sweeps := t.dir.sweeps, changes := t.dir.changes, echoes := t.dir.echoes,
      withdrawn := t.dir.withdrawn }
  echoes : s.dir.echoes.length ≤ Config.echoListSize → t.dir.echoes.length ≤ Config.echoListSize
  changes : t.dir.changes = s.dir.changes ∨ t.dir.changes = []
  sweeps : t.dir.sweeps = s.dir.sweeps ∨ t.dir.sweeps = .none

theorem Directed.refl (s : State) : Directed s s := ⟨rfl, fun _ => .refl _, rfl, fun _ => id, rfl, id, .inl rfl, .inl rfl⟩

theorem Directed.trans {s t u : State} (h : Directed s t) (k : Directed t u) : Directed s u where
  same := by
    have e := k.same
    rw [h.same] at e
    exact e
  unit := fun n => (h.unit n).trans (k.unit n)
  rate := k.rate.trans h.rate
  flags := fun f c => k.flags f (h.flags f c)
  dirSame := by
    have e := k.dirSame
    rw [h.dirSame] at e
    exact e
  echoes := fun c => k.echoes (h.echoes c)
  changes := by
    rcases k.changes with e | e
    · rw [e]; exact h.changes
    · exact .inr e
  sweeps := by
    rcases k.sweeps with e | e
    · rw [e]; exact h.sweeps
    · exact .inr e

section Fields
variable {s t : State} (h : Directed s t)
include h
theorem Directed.port : t.port = s.port := (congrArg State.port h.same :)
theorem Directed.hist : t.hist = s.hist := (congrArg State.hist h.same :)
theorem Directed.pen : t.pen = s.pen := (congrArg State.pen h.same :)
theorem Directed.corr : t.corr = s.corr := (congrArg State.corr h.same :)
theorem Directed.res : t.res = s.res := (congrArg State.res h.same :)
theorem Directed.filt : t.filt = s.filt := (congrArg State.filt h.same :)
theorem Directed.menu : t.menu = s.menu := (congrArg State.menu h.same :)
theorem Directed.cross : t.cross = s.cross := (congrArg State.cross h.same :)
theorem Directed.coord : t.coord = { s.coord with view := t.coord.view } := (congrArg State.coord h.same :)
theorem Directed.stats : t.stats = s.stats := (congrArg State.stats h.same :)
theorem Directed.answerOut : t.answerOut = s.answerOut := (congrArg State.answerOut h.same :)
theorem Directed.pending : t.pending = s.pending := (congrArg State.pending h.same :)
end Fields

theorem Posted.directed {s t : State} (h : Posted s t) : Directed s t where
  same := by
    rw [h.dir, h.coord]
    exact h.same
  unit := h.unit
  rate := h.rate
  flags := h.flags
  dirSame := by rw [h.dir]
  echoes := by rw [h.dir]; exact id
  changes := .inl (by rw [h.dir])
  sweeps := .inl (by rw [h.dir])

/-- In a table in its form, an entry listed is the one found. -/
theorem find_of_mem {d : Dir} {seg : Nat} {e : Entry} (hr : d.rising) (h : (seg, e) ∈ d) : Dir.find d seg = some e := by
  induction d with
  | nil => exact nomatch h
  | cons p rest ih =>
    obtain ⟨k, f⟩ := p
    rw [rising_cons] at hr
    unfold Dir.find
    rcases List.mem_cons.1 h with h | h
    · cases h
      exact if_pos rfl
    · rw [if_neg (Nat.ne_of_lt (hr.1 _ h))]
      exact ih hr.2 h

/-- A sweep frees the segments of its link alone (R43). -/
theorem mem_freedBySweep (n : Link) (d : Dir) (hw : Dir.wf d = true) (k : Nat) :
    k ∈ Dir.freedBySweep n d ↔ ownerOf (Dir.find d k) = .single n := by
  have hd := (wf_iff d).1 hw
  have key : ∀ o : LinkSet, o.isEmpty = false → ((o.diff (.single n)).isEmpty = true ↔ o = .single n) := by
    rintro ⟨a, b⟩
    cases n <;> cases a <;> cases b <;> decide
  unfold Dir.freedBySweep
  rw [List.mem_map]
  constructor
  · rintro ⟨⟨k', e⟩, hp, rfl⟩
    rw [List.mem_filter] at hp
    rw [find_of_mem hd.1 hp.1]
    exact (key _ (hd.2 _ hp.1).2).1 hp.2
  · intro h
    match hf : Dir.find d k with
    | none => rw [hf] at h; exact absurd h (by cases n <;> decide)
    | some e =>
      rw [hf] at h
      refine ⟨(k, e), List.mem_filter.2 ⟨find_mem hf, ?_⟩, rfl⟩
      exact (key _ (find_owned hw hf).2).2 h

/-- The segments named once in a list, after more are added (R39). -/
theorem mem_foldl_addOnce (l w : List Nat) (k : Nat) : k ∈ l.foldl (fun w k => addOnce k w) w ↔ k ∈ w ∨ k ∈ l := by
  induction l generalizing w with
  | nil => simp
  | cons a rest ih =>
    have h : ∀ v : Nat, v ∈ addOnce a w ↔ v ∈ w ∨ v = a := by
      intro v
      unfold addOnce
      split
      · rename_i hc
        rw [List.contains_iff_mem] at hc
        exact ⟨.inl, fun hv => hv.elim id (fun e => e ▸ hc)⟩
      · simp
    rw [List.foldl_cons, ih, h, List.mem_cons, or_assoc]

/-- A change applied in force (R37, R41). -/
theorem applyChange_directed (s : State) (c : Change) : Directed s (s.applyChange c) := by
  unfold State.applyChange
  dsimp only
  split <;>
    exact ⟨rfl, fun n => by cases n <;> exact .refl _, rfl, fun _ => id, rfl,
      fun h => Nat.le_trans (List.length_filter_le _ _) h, .inl rfl, .inl rfl⟩

theorem applyChange_entries (s : State) (c : Change) :
    (s.applyChange c).dir.entries = c.op.apply c.issuer s.dir.entries := by
  unfold State.applyChange
  dsimp only
  split <;> rfl

theorem applyListed_directed (s : State) (c : Change) : Directed s (s.applyListed c) := by
  unfold State.applyListed
  split
  · exact applyChange_directed s c
  · exact ((setFlag_posted s _).trans (post_posted _ _ _)).directed

/-- A listed change acts on the entries as its re-check in the projected directory does (R26, R37). -/
theorem applyListed_entries (s : State) (c : Change) :
    (s.applyListed c).dir.entries = c.recheck s.dir.entries := by
  unfold State.applyListed Change.recheck
  split
  · exact applyChange_entries s c
  · exact congrArg Directory.entries ((setFlag_posted s _).trans (post_posted _ _ _)).dir

theorem applySweep_directed (s : State) (n : Link) : Directed s (s.applySweep n) :=
  ⟨rfl, fun m => by cases m <;> exact .refl _, rfl, fun _ => id, rfl,
    fun h => Nat.le_trans (List.length_filter_le _ _) h, .inl rfl, .inl rfl⟩

theorem applyListed_foldl_directed (changes : List Change) (s : State) :
    Directed s (changes.foldl State.applyListed s) := by
  induction changes generalizing s with
  | nil => exact .refl s
  | cons c rest ih => exact (applyListed_directed s c).trans (ih _)

theorem applyListed_foldl_entries (changes : List Change) (s : State) :
    (changes.foldl State.applyListed s).dir.entries = changes.foldl (fun d c => c.recheck d) s.dir.entries := by
  induction changes generalizing s with
  | nil => rfl
  | cons c rest ih =>
    rw [List.foldl_cons, List.foldl_cons, ih, applyListed_entries]

theorem applyListed_lists (s : State) (c : Change) :
    (s.applyListed c).dir.changes = s.dir.changes ∧ (s.applyListed c).dir.sweeps = s.dir.sweeps := by
  unfold State.applyListed
  split
  · unfold State.applyChange
    dsimp only
    split <;> exact ⟨rfl, rfl⟩
  · rw [(post_posted _ _ _).dir, (setFlag_posted _ _).dir]
    exact ⟨rfl, rfl⟩

theorem applyListed_foldl_lists (changes : List Change) (s : State) :
    (changes.foldl State.applyListed s).dir.changes = s.dir.changes ∧
      (changes.foldl State.applyListed s).dir.sweeps = s.dir.sweeps := by
  induction changes generalizing s with
  | nil => exact ⟨rfl, rfl⟩
  | cons c rest ih =>
    have h := applyListed_lists s c
    have k := ih (s.applyListed c)
    exact ⟨k.1.trans h.1, k.2.trans h.2⟩

/-- The staged work applied (R37, R40): nothing else of the part changes, and nothing stays staged. -/
theorem applyStaged_directed (s : State) :
    Directed s s.applyStaged ∧ s.applyStaged.dir.changes = [] ∧ s.applyStaged.dir.sweeps = .none := by
  unfold State.applyStaged
  dsimp only
  generalize hb : (if s.dir.sweeps.l0 = true then
    State.applySweep { s with dir := { s.dir with withdrawn := [], sweeps := .none, changes := [] } } .link0
    else { s with dir := { s.dir with withdrawn := [], sweeps := .none, changes := [] } }) = b
  have h0 : Directed s { s with dir := { s.dir with withdrawn := [], sweeps := .none, changes := [] } } :=
    ⟨rfl, fun n => by cases n <;> exact .refl _, rfl, fun _ => id, rfl, id, .inr rfl, .inr rfl⟩
  have h1 : Directed s b ∧ b.dir.changes = [] ∧ b.dir.sweeps = .none := by
    subst hb
    split
    · exact ⟨h0.trans (applySweep_directed _ _), rfl, rfl⟩
    · exact ⟨h0, rfl, rfl⟩
  generalize hc : (if s.dir.sweeps.l1 = true then b.applySweep .link1 else b) = c
  have h2 : Directed s c ∧ c.dir.changes = [] ∧ c.dir.sweeps = .none := by
    subst hc
    split
    · exact ⟨h1.1.trans (applySweep_directed _ _), h1.2.1, h1.2.2⟩
    · exact h1
  have h3 := applyListed_foldl_lists s.dir.changes c
  exact ⟨h2.1.trans (applyListed_foldl_directed _ _), h3.1.trans h2.2.1, h3.2.trans h2.2.2⟩

/-- The entries after the staged work are those of the projected directory (R26, R37). -/
theorem applyStaged_entries (s : State) : s.applyStaged.dir.entries = s.dir.projected := by
  unfold State.applyStaged Directory.projected Dir.sweeps
  dsimp only
  rw [applyListed_foldl_entries]
  split <;> split <;> rfl

end Sys2Proof.Machine
end

