-- ==== Sys2Proof/Laws/Bounded.lean ====
section
/-! SUPPORT. The bounds of the part's stores are kept by every shared operation. -/

namespace Sys2Proof.Machine

variable {s t : State}

/-! ## The relations -/

theorem Correlated.bounded (h : Correlated s t) (b : s.Bounded) : t.Bounded where
  frameTime := by rw [h.port]; exact b.frameTime
  fifo := by rw [h.port]; exact b.fifo
  answers := by rw [h.port]; exact b.answers
  changes := by rw [h.dir]; exact b.changes
  echoes := h.echoes b.echoes
  ring := by rw [h.hist]; exact b.ring
  waiting := Nat.le_trans h.waiting b.waiting
  tally := h.tally b.tally
  filters := by rw [h.filt]; exact b.filters
  next := h.next b.next
  current := h.current b.next b.current
  sums := h.sums b.sums
  inbound := fun n => by rw [(h.unit n).inbound]; exact b.inbound n
  queue := fun n => (h.unit n).room (b.queue n)

theorem Resolved.bounded (h : Resolved s t) (b : s.Bounded) : t.Bounded := h.correlated.bounded b

theorem Posted.bounded (h : Posted s t) (b : s.Bounded) : t.Bounded := h.resolved.bounded b

theorem Directed.bounded (h : Directed s t) (b : s.Bounded) : t.Bounded where
  frameTime := by rw [h.port]; exact b.frameTime
  fifo := by rw [h.port]; exact b.fifo
  answers := by rw [h.port]; exact b.answers
  changes := by
    rcases h.changes with e | e
    · rw [e]; exact b.changes
    · rw [e]; exact Nat.zero_le _
  echoes := h.echoes b.echoes
  ring := by rw [h.hist]; exact b.ring
  waiting := by rw [h.pen]; exact b.waiting
  tally := by rw [h.res]; exact b.tally
  filters := by rw [h.filt]; exact b.filters
  next := by rw [h.menu]; exact b.next
  current := by rw [h.menu]; exact b.current
  sums := by rw [h.menu]; exact b.sums
  inbound := fun n => by rw [(h.unit n).inbound]; exact b.inbound n
  queue := fun n => (h.unit n).room (b.queue n)

/-- A counter counted. -/
theorem count_bounded (c : Counter) (b : s.Bounded) : (s.count c).Bounded := { b with }

/-! ## The history -/

theorem closeNewest_length (t : Nat) (l : List HistoryRecord) : (closeNewest t l).length = l.length := by
  induction l with
  | nil => rfl
  | cons r rest ih =>
    cases rest with
    | nil => rfl
    | cons q rest => simp only [closeNewest, List.length_cons, ih]

theorem enter_length (h : History) (r : HistoryRecord) (hl : h.ring.length ≤ Config.ringSize) :
    (h.enter r).ring.length ≤ Config.ringSize := by
  unfold History.enter
  dsimp only
  split
  · rename_i hlt
    rw [List.length_append]
    exact hlt
  · dsimp only
    rw [List.length_append, List.length_tail, closeNewest_length]
    simp only [List.length_cons, List.length_nil, Config.ringSize] at *
    omega

theorem takeEntry_length (h : History) (e : FifoEntry) (hl : h.ring.length ≤ Config.ringSize) :
    (h.takeEntry e).ring.length ≤ Config.ringSize := by
  have h1 : ∀ g, (h.openGap g).ring.length ≤ Config.ringSize := fun g => enter_length h _ hl
  have h2 : ∀ k : History, k.ring.length ≤ Config.ringSize → (k.closeGap e.stamp).ring.length ≤ Config.ringSize := by
    intro k hk
    unfold History.closeGap
    split
    · dsimp only; rw [closeNewest_length]; exact hk
    · exact hk
  have h3 : ∀ k : History, k.ring.length ≤ Config.ringSize →
      (k.applyRecord e.record e.stamp).ring.length ≤ Config.ringSize := by
    intro k hk
    unfold History.applyRecord
    split
    · exact hk
    · exact hk
    · dsimp only
      split
      · exact enter_length k _ hk
      · exact enter_length k _ hk
  unfold History.takeEntry
  dsimp only
  cases e.gapStart with
  | none =>
    dsimp only
    split
    · exact hl
    · exact h3 _ (h2 _ hl)
  | some g =>
    dsimp only
    split
    · exact h1 g
    · exact h3 _ (h2 _ (h1 g))

theorem frameEnd_length (h : History) (t : Nat) (g : Option Nat) (hl : h.ring.length ≤ Config.ringSize) :
    (h.frameEnd t g).ring.length ≤ Config.ringSize := by
  unfold History.frameEnd
  dsimp only
  rw [closeNewest_length]
  split
  · exact enter_length h _ hl
  · exact hl

theorem historyTakes_bounded (e : FifoEntry) (b : s.Bounded) : (s.historyTakes e).Bounded := by
  have h1 : State.Bounded { s with hist := s.hist.takeEntry e } := { b with ring := takeEntry_length _ e b.ring }
  unfold State.historyTakes
  dsimp only
  split
  · exact h1
  · exact (releaseTest_correlated _).bounded { h1 with }

theorem handEntries_bounded (l : List FifoEntry) (s : State) (b : s.Bounded) (h : l.length ≤ Config.fifoSize) :
    (handEntries l s).Bounded := by
  induction l generalizing s with
  | nil => exact b
  | cons e rest ih =>
    unfold handEntries
    refine ih _ (historyTakes_bounded e ?_) (Nat.le_of_succ_le h)
    exact { b with fifo := Nat.le_of_succ_le h }

theorem flushFifo_bounded (b : s.Bounded) : s.flushFifo.Bounded := handEntries_bounded _ s b b.fifo

theorem handOldest_bounded (b : s.Bounded) : s.handOldest.Bounded := by
  unfold State.handOldest
  split
  · exact b
  · rename_i e rest h
    refine historyTakes_bounded e { b with fifo := ?_ }
    have := b.fifo
    rw [h] at this
    exact Nat.le_of_succ_le this

/-! ## Intake -/

theorem dropAnswers_bounded (b : s.Bounded) : s.dropAnswers.Bounded := by
  unfold State.dropAnswers
  split
  · exact b
  · exact (setFlag_posted _ _).bounded { b with answers := Nat.zero_le _ }

theorem enqueue_bounded (r : QueuedRecord) (stamp : Nat) (b : s.Bounded) : (s.enqueue r stamp).Bounded := by
  unfold State.enqueue
  split
  · rename_i h
    refine { b with fifo := ?_ }
    show (s.port.fifo ++ [_]).length ≤ _
    rw [List.length_append]
    exact h
  · refine count_bounded _ ((setFlag_posted _ _).bounded { b with })

theorem answer_bounded (words : List Word) (b : s.Bounded) (h : words.length ≤ 3) : (s.answer words).Bounded :=
  { b with answers := h }

theorem segmentOpens_bounded (seg stamp : Nat) (b : s.Bounded) : (s.segmentOpens seg stamp).Bounded := by
  have h1 := dropAnswers_bounded b
  unfold State.segmentOpens
  dsimp only
  split
  · refine answer_bounded _ (enqueue_bounded _ _ ?_) (by show 1 ≤ 3; decide)
    have h2 : State.Bounded (if s.dropAnswers.port.openSeg.isSome = true then s.dropAnswers.setFlag .portProtocol
        else s.dropAnswers) := by
      split
      · exact (setFlag_posted _ _).bounded h1
      · exact h1
    exact { h2 with }
  · exact answer_bounded _ ((setFlag_posted _ _).bounded h1) (by show 1 ≤ 3; decide)

theorem segmentCloses_bounded (stamp : Nat) (b : s.Bounded) : (s.segmentCloses stamp).Bounded := by
  have h1 := dropAnswers_bounded b
  unfold State.segmentCloses
  dsimp only
  split
  · exact enqueue_bounded _ _ { h1 with }
  · exact (setFlag_posted _ _).bounded h1

theorem vectorArrives_bounded (beam : Bool) (p : Stroke) (stamp : Nat) (b : s.Bounded) :
    (s.vectorArrives beam p stamp).Bounded := by
  have h1 := dropAnswers_bounded b
  unfold State.vectorArrives
  dsimp only
  split
  · exact count_bounded _ (enqueue_bounded _ _ h1)
  · exact (setFlag_posted _ _).bounded h1

theorem readAnswer_bounded (b : s.Bounded) : s.readAnswer.Bounded := by
  unfold State.readAnswer
  split
  · rename_i w rest h
    have := b.answers
    rw [h] at this
    exact { b with answers := Nat.le_of_succ_le this }
  · exact (setFlag_posted _ _).bounded { b with }

theorem abandonRecord_bounded (b : s.Bounded) : s.abandonRecord.Bounded := by
  unfold State.abandonRecord
  split
  · exact (setFlag_posted _ _).bounded { b with }
  · exact b

/-! ## The pen -/

theorem leadingEdge_bounded (enable : Bool) (b : s.Bounded) : (s.leadingEdge enable).Bounded := by
  unfold State.leadingEdge
  split
  · exact b
  · dsimp only
    split
    · exact count_bounded _ { b with }
    · split
      · exact count_bounded _ { b with }
      · exact { b with }

theorem pulseReleased_bounded (b : s.Bounded) : s.pulseReleased.Bounded := by
  unfold State.pulseReleased
  split
  · exact b
  · dsimp only
    split
    · exact count_bounded _ { b with }
    · exact { b with }

theorem qualify_bounded (b : s.Bounded) : s.qualify.Bounded := by
  unfold State.qualify
  split
  · exact b
  · unfold State.floodTest
    split
    · unfold State.joinWaiting
      split
      · rename_i h
        refine (releaseTest_correlated _).bounded (count_bounded _ { b with waiting := ?_ })
        dsimp only
        rw [List.length_append]
        exact h
      · exact count_bounded _ { b with }
    · exact count_bounded _ { b with }

theorem discardPulse_bounded (b : s.Bounded) : s.discardPulse.Bounded := by
  unfold State.discardPulse
  split
  · exact count_bounded _ { b with }
  · exact b

theorem penReckoning_bounded (b : s.Bounded) : (penReckoning s).Bounded := by
  unfold penReckoning
  split
  · exact b
  · split
    · have h1 : State.Bounded (State.setFlag { s with pen := { s.pen with floods := s.pen.floods + 1 } } .flood) :=
        (setFlag_posted _ _).bounded { b with }
      dsimp only
      split
      · exact (loseAttempt_resolved _ _).bounded ((setFlag_posted _ _).bounded { h1 with })
      · exact h1
    · exact { b with }

theorem debounce_bounded (b : s.Bounded) : s.debounce.Bounded := by
  unfold State.debounce
  dsimp only
  split
  · exact (tipDown_resolved _).bounded { b with }
  · exact (tipUp_resolved _).bounded { b with }
  · exact { b with }
  · exact { b with }

theorem tipShows_bounded (level : TipLevel) (b : s.Bounded) : (s.tipShows level).Bounded := by
  unfold State.tipShows
  split
  · exact b
  · exact { b with }

/-! ## Frame end, frame start, absence -/

theorem setCross_bounded (c : Cross) (b : s.Bounded) : (s.setCross c).Bounded := by
  unfold State.setCross
  dsimp only
  split
  · exact { b with }
  · exact (post_posted _ _ _).bounded { b with }

theorem menuDwell_bounded (b : s.Bounded) : (menuDwell s).Bounded := by
  have hf : ∀ item, (s.menu.follow item).next = s.menu.next ∧ (s.menu.follow item).current = s.menu.current ∧
      (s.menu.follow item).sums = s.menu.sums := by
    intro item
    unfold Menu.follow
    dsimp only
    repeat' split
    all_goals exact ⟨rfl, rfl, rfl⟩
  have h1 : ∀ item, State.Bounded { s with menu := s.menu.follow item } := by
    intro item
    have := hf item
    exact
      { b with
        next := by rw [show ({ s with menu := s.menu.follow item } : State).menu.next = s.menu.next from this.1]; exact b.next
        current := by
          rw [show ({ s with menu := s.menu.follow item } : State).menu.current = s.menu.current from this.2.1]
          exact b.current
        sums := by
          rw [show ({ s with menu := s.menu.follow item } : State).menu.sums = s.menu.sums from this.2.2]; exact b.sums }
  unfold menuDwell
  dsimp only
  split
  · exact h1 _
  · split
    · have h2 : State.Bounded (State.dwellChoice { s with menu := s.menu.follow (s.dwellItem.map (fun e => e.seg)) } ‹_›) := by
        unfold State.dwellChoice
        exact (menuOutcome_resolved _ _ _ _).bounded (count_bounded _ { h1 _ with })
      exact { h2 with }
    · exact h1 _

theorem runFrameEndTask_bounded (task : FrameEndTask) (b : s.Bounded) : (runFrameEndTask task s).Bounded := by
  cases task
  · exact penReckoning_bounded b
  · exact setCross_bounded _ b
  · exact (resolverCount_resolved s).bounded b
  · exact menuDwell_bounded b

theorem endTasks_bounded (tasks : List FrameEndTask) (s : State) (b : s.Bounded) :
    (tasks.foldl (fun t task => runFrameEndTask task t) s).Bounded := by
  induction tasks generalizing s with
  | nil => exact b
  | cons task rest ih => exact ih _ (runFrameEndTask_bounded task b)

theorem frameHits_bounded (b : s.Bounded) : s.frameHits.Bounded := by
  have h := (correlateWaiting_correlated s.pen.waiting s rfl).1.bounded b
  exact { h with }

theorem frameEnds_bounded (endTime : Nat) (o : FrameEndOrder) (b : s.Bounded) : (s.frameEnds endTime o).Bounded := by
  have h1 := discardPulse_bounded b
  have h2 : State.Bounded (s.discardPulse.closeHistory endTime) := { h1 with ring := frameEnd_length _ _ _ h1.ring }
  have h3 := endTasks_bounded (endTasks o) _ (frameHits_bounded h2)
  exact { h3 with }

theorem boundary_bounded (b : s.Bounded) : s.boundary.Bounded := dropAnswers_bounded (flushFifo_bounded b)

theorem handWithdrawn_bounded (start : Bool) (b : s.Bounded) : (s.handWithdrawn start).Bounded :=
  { b with tally := Nat.le_trans (List.length_filter_le _ _) b.tally }

theorem copyStack_bounded (b : s.Bounded) : s.copyStack.Bounded :=
  (copyStack_posted s).bounded { b with current := b.next }

theorem menuFrameStart_bounded (b : s.Bounded) : s.menuFrameStart.Bounded :=
  { copyStack_bounded b with sums := Nat.zero_le _ }

theorem menuDark_bounded (b : s.Bounded) : s.menuDark.Bounded := { copyStack_bounded b with sums := Nat.zero_le _ }

theorem echoStep_bounded (b : s.Bounded) : s.echoStep.Bounded :=
  { b with
    echoes := by
      refine Nat.le_trans (List.length_filter_le _ _) ?_
      rw [List.length_map]
      exact b.echoes }

theorem directoryStart_bounded (b : s.Bounded) : s.directoryStart.Bounded :=
  echoStep_bounded ((applyStaged_directed s).1.bounded b)

theorem handStart_bounded (v : Bool) (b : s.Bounded) : (s.handStart v).Bounded := by
  unfold State.handStart
  dsimp only
  split
  · exact (loseAttempt_resolved _ _).bounded (handWithdrawn_bounded _ b)
  · exact handWithdrawn_bounded _ b

theorem startWork_bounded (o : FrameStartOrder) (b : s.Bounded) : (s.startWork o).Bounded := by
  unfold State.startWork
  dsimp only
  split
  · exact handStart_bounded _ (directoryStart_bounded (menuFrameStart_bounded b))
  · exact handStart_bounded _ (menuFrameStart_bounded (directoryStart_bounded b))
  · exact menuFrameStart_bounded (handStart_bounded _ (directoryStart_bounded b))

theorem frameStarts_bounded (seq : Byte) (o : FrameStartOrder) (b : s.Bounded) : (s.frameStarts seq o).Bounded := by
  refine answer_bounded _ (startWork_bounded o ?_) (by show 3 ≤ 3; decide)
  exact count_bounded _ { b with frameTime := Nat.zero_le _, ring := Nat.zero_le _ }

theorem truncate_bounded (o : FrameEndOrder) (b : s.Bounded) : (s.truncate o).Bounded := by
  unfold State.truncate
  split
  · exact frameEnds_bounded _ _ ((setFlag_posted _ _).bounded b)
  · exact b

theorem frameOpens_bounded (seq : Byte) (e : FrameEndOrder) (o : FrameStartOrder) (b : s.Bounded) :
    (s.frameOpens seq e o).Bounded := frameStarts_bounded _ _ (truncate_bounded _ (boundary_bounded b))

theorem frameCloses_bounded (o : FrameEndOrder) (b : s.Bounded) : (s.frameCloses o).Bounded := by
  have h1 := boundary_bounded b
  unfold State.frameCloses
  dsimp only
  split
  · have h2 : State.Bounded (if s.boundary.port.openSeg.isSome = true then s.boundary.setFlag .portProtocol else s.boundary) := by
      split
      · exact (setFlag_posted _ _).bounded h1
      · exact h1
    exact { frameEnds_bounded _ o h2 with }
  · exact (setFlag_posted _ _).bounded h1

theorem enterDark_bounded (o : DarkOrder) (b : s.Bounded) : (s.enterDark o).Bounded := by
  have h1 : State.Bounded (State.setFlag { s with port := { s.port with mode := .dark, absence := 0 } } .dark) :=
    (setFlag_posted _ _).bounded { b with }
  have h2 : ∀ (l : List DarkTask) (u : State), u.Bounded → (l.foldl (fun t task => runDarkTask task t) u).Bounded := by
    intro l
    induction l with
    | nil => exact fun u h => h
    | cons task rest ih =>
      intro u h
      refine ih _ ?_
      cases task
      · exact handWithdrawn_bounded _ ((applyStaged_directed u).1.bounded h)
      · exact (loseAttempt_resolved u _).bounded h
      · exact menuDark_bounded h
  exact h2 _ _ h1

theorem absenceExpires_bounded (e : FrameEndOrder) (o : DarkOrder) (b : s.Bounded) : (s.absenceExpires e o).Bounded := by
  unfold State.absenceExpires
  split
  · exact b
  · exact enterDark_bounded _ b
  · exact enterDark_bounded _ (frameEnds_bounded _ _ (flushFifo_bounded b))

theorem wordWritten_bounded (w : Word) (b : s.Bounded) : (s.wordWritten w).Bounded := by
  unfold State.wordWritten
  split
  · have h1 := abandonRecord_bounded b
    unfold State.markedWord
    dsimp only
    split
    · exact frameOpens_bounded _ _ _ h1
    · exact segmentOpens_bounded _ _ h1
    · exact segmentCloses_bounded _ h1
    · exact { h1 with }
    · exact frameCloses_bounded _ h1
    · exact (setFlag_posted _ _).bounded h1
  · unfold State.unmarkedWord
    split
    · exact (setFlag_posted _ _).bounded b
    · dsimp only
      split
      · exact vectorArrives_bounded _ _ _ { b with }
      · exact { b with }

/-! ## Time -/

theorem unit_setUnit (s : State) (n m : Link) (u : LinkUnit) : (s.setUnit n u).unit m = if m = n then u else s.unit m := by
  cases n <;> cases m <;> rfl

theorem setUnit_bounded (n : Link) (u : LinkUnit) (b : s.Bounded) (hi : u.inbound.length ≤ Config.inboundSize)
    (hq : u.queue.length ≤ Config.noticeQueueSize) : (s.setUnit n u).Bounded where
  frameTime := by rw [setUnit_port]; exact b.frameTime
  fifo := by rw [setUnit_port]; exact b.fifo
  answers := by rw [setUnit_port]; exact b.answers
  changes := by rw [setUnit_dir]; exact b.changes
  echoes := by rw [setUnit_dir]; exact b.echoes
  ring := by rw [setUnit_hist]; exact b.ring
  waiting := by rw [setUnit_pen]; exact b.waiting
  tally := by rw [setUnit_res]; exact b.tally
  filters := by rw [setUnit_filt]; exact b.filters
  next := by rw [setUnit_menu]; exact b.next
  current := by rw [setUnit_menu]; exact b.current
  sums := by rw [setUnit_menu]; exact b.sums
  inbound := fun m => by rw [unit_setUnit]; split; exact hi; exact b.inbound m
  queue := fun m => by rw [unit_setUnit]; split; exact hq; exact b.queue m

theorem placeReply_bounded (n : Link) (r : Reply) (b : s.Bounded) : (s.placeReply n r).Bounded := by
  refine setUnit_bounded n _ b ?_ ?_
  · rw [LinkUnit.kick_inbound]; exact b.inbound n
  · exact Nat.le_trans (LinkUnit.kick_queue_length _) (b.queue n)

theorem setReceiver_bounded (n : Link) (rx : Receiver) (b : s.Bounded) : (s.setReceiver n rx).Bounded :=
  setUnit_bounded n _ b (b.inbound n) (b.queue n)

theorem failFrame_bounded (n : Link) (r : FailReason) (b : s.Bounded) : (s.failFrame n r).Bounded := by
  have h1 := (setFlag_posted (s.setReceiver n .hunting) (.frameError n)).bounded (setReceiver_bounded n _ b)
  unfold State.failFrame
  dsimp only
  split
  · exact placeReply_bounded n _ h1
  · exact h1

theorem elapse_bounded (d : Nat) (b : s.Bounded) : (s.elapse d).Bounded := by
  have hp : (s.port.age d).frameTime ≤ Config.frameTimeLimit ∧ (s.port.age d).fifo = s.port.fifo ∧
      (s.port.age d).answers = s.port.answers := by
    unfold Port.age
    split
    · exact ⟨b.frameTime, rfl, rfl⟩
    · exact ⟨Nat.min_le_right _ _, rfl, rfl⟩
    · exact ⟨Nat.min_le_right _ _, rfl, rfl⟩
  exact
    { b with
      frameTime := hp.1
      fifo := by show (s.port.age d).fifo.length ≤ _; rw [hp.2.1]; exact b.fifo
      answers := by show (s.port.age d).answers.length ≤ _; rw [hp.2.2]; exact b.answers
      inbound := fun n => by cases n; exact b.inbound .link0; exact b.inbound .link1
      queue := fun n => by cases n; exact b.queue .link0; exact b.queue .link1 }

theorem fire_bounded (e : TimedEvent) (b : s.Bounded) : (s.fire e).Bounded := by
  cases e
  · exact qualify_bounded b
  · exact debounce_bounded b
  · exact failFrame_bounded _ _ b
  · exact absenceExpires_bounded _ _ b

theorem advanceBy_bounded (fuel d : Nat) (s : State) (b : s.Bounded) : (State.advanceBy fuel d s).Bounded := by
  induction fuel generalizing d s with
  | zero => exact elapse_bounded d b
  | succ k ih =>
    unfold State.advanceBy
    split
    · exact elapse_bounded d b
    · split
      · exact ih _ _ (fire_bounded _ (elapse_bounded _ b))
      · exact elapse_bounded d b

/-- The passing of time keeps every store within its places. -/
theorem advance_bounded (d : Nat) (b : s.Bounded) : (s.advance d).Bounded := by
  unfold State.advance
  split
  · exact b
  · exact advanceBy_bounded 5 d s b

end Sys2Proof.Machine
end

