-- ==== Sys2Proof/Laws/FrameLogic.lean ====
section
/-! SUPPORT. What the frame logic does, in the words of Safety: the emptying of the FIFO, the frame's end and start, the entry into DARK,
and the parameters that every shared operation leaves as they were. -/

namespace Sys2Proof.Machine

/-! ## The orders -/

theorem endTasks_perm (o : FrameEndOrder) :
    (endTasks o).Perm [.penReckoning, .crossUpdate, .resolverCount, .menuDwell] := by
  obtain ⟨c, p, m⟩ := o
  revert c p m
  decide

theorem darkTasks_perm (o : DarkOrder) : (darkTasks o).Perm [.directory, .resolver, .menu] := by
  obtain ⟨r, m⟩ := o
  revert r m
  decide

theorem foldl_map_run {α : Type} (run : α → State → State) (tasks : List α) (s : State) :
    (tasks.map run).foldl (fun a task => task a) s = tasks.foldl (fun t task => run task t) s := by
  rw [List.foldl_map]

/-! ## The emptying of the FIFO -/

theorem flushFifo_nil {s : State} (h : s.port.fifo = []) : s.flushFifo = s := by
  unfold State.flushFifo
  exact h ▸ rfl

theorem handOldest_fifo {s : State} {e : FifoEntry} {rest : List FifoEntry} (h : s.port.fifo = e :: rest) :
    s.handOldest.port.fifo = rest := by
  unfold State.handOldest State.historyTakes
  rw [h]
  cases hr : e.reports with
  | none => exact (by simp only [hr])
  | some g =>
    simp only [hr]
    exact congrArg Port.fifo (releaseTest_correlated _).port

/-- The emptying hands over the oldest entry as the history's taking of one does, and then empties the rest (R4). -/
theorem flushFifo_cons {s : State} {e : FifoEntry} {rest : List FifoEntry} (h : s.port.fifo = e :: rest) :
    s.flushFifo = s.handOldest.flushFifo := by
  have hl : s.flushFifo = handEntries rest s.handOldest := by
    unfold State.flushFifo State.handOldest
    rw [h]
    exact Eq.refl _
  have hr : s.handOldest.flushFifo = handEntries rest s.handOldest :=
    congrArg (fun l => handEntries l s.handOldest) (handOldest_fifo h)
  exact hl.trans hr.symm

/-! ## The frame's end and start, and the entry into DARK -/

theorem discardPulse_eq (s : State) :
    s.discardPulse =
      if s.pen.pulse = none then s
      else { s with pen := { s.pen with pulse := none }, stats := s.stats.count .discarded } := by
  unfold State.discardPulse State.count
  cases s.pen.pulse <;> rfl

theorem frameEnds_endsFrame (s : State) (endTime : Nat) (o : FrameEndOrder) :
    endsFrame s endTime o (s.frameEnds endTime o) := by
  refine ⟨s.discardPulse, s.discardPulse.closeHistory endTime, _, _, (endTasks_perm o).map _, rfl, discardPulse_eq s, ?_, rfl, ?_⟩
  · have hp : s.discardPulse.port = s.port := by rw [discardPulse_eq]; split <;> rfl
    unfold State.closeHistory
    cases hg : s.port.pendingGap <;> simp only [hp, hg]
  · exact congrArg (fun w : State => { w with res := { w.res with fresh := false } }) (foldl_map_run _ _ _).symm

theorem frameStarts_startsFrame (s : State) (seq : Byte) (o : FrameStartOrder) :
    startsFrame s seq o (s.frameStarts seq o) := by
  refine ⟨s.beginFrame seq, (s.beginFrame seq).startWork o,
    fun a => a.handStart (s.dir.changes.any (fun c => c.op.isView)), rfl, ?_, ?_, ?_, rfl⟩
  · rintro ⟨c, hc, hv⟩
    have h : s.dir.changes.any (fun c => c.op.isView) = true := List.any_eq_true.mpr ⟨c, hc, hv⟩
    rw [h]
    rfl
  · intro hv
    have h : s.dir.changes.any (fun c => c.op.isView) = false :=
      List.any_eq_false.mpr (fun c hc => by rw [hv c hc]; exact Bool.false_ne_true)
    rw [h]
    rfl
  · cases o <;> rfl

theorem enterDark_entersDark (s : State) (o : DarkOrder) : entersDark s o (s.enterDark o) := by
  refine ⟨_, (darkTasks_perm o).map runDarkTask, rfl, ?_⟩
  rw [foldl_map_run]
  rfl

/-! ## What the frame logic keeps -/

theorem sameParameters.refl (s : State) : sameParameters s s := ⟨rfl, rfl, rfl, rfl, rfl, rfl, rfl, rfl⟩

theorem sameParameters.trans {s t u : State} (h : sameParameters s t) (k : sameParameters t u) : sameParameters s u :=
  ⟨k.1.trans h.1, k.2.1.trans h.2.1, k.2.2.1.trans h.2.2.1, k.2.2.2.1.trans h.2.2.2.1, k.2.2.2.2.1.trans h.2.2.2.2.1,
    k.2.2.2.2.2.1.trans h.2.2.2.2.2.1, k.2.2.2.2.2.2.1.trans h.2.2.2.2.2.2.1, k.2.2.2.2.2.2.2.trans h.2.2.2.2.2.2.2⟩

/-- The parameters stand, and no condition flag is cleared. -/
structure Kept (s t : State) : Prop where
  params : sameParameters s t
  flags : ∀ f, flagSet s.flags f = true → flagSet t.flags f = true

theorem Kept.refl (s : State) : Kept s s := ⟨.refl s, fun _ => id⟩

theorem Kept.trans {s t u : State} (h : Kept s t) (k : Kept t u) : Kept s u :=
  ⟨h.params.trans k.params, fun f c => k.flags f (h.flags f c)⟩

theorem Correlated.kept {s t : State} (h : Correlated s t) : Kept s t where
  params := by
    have hm : t.menu.dw = s.menu.dw := by rw [h.menuSame]
    have hc : (t.cross.slew, t.cross.k) = (s.cross.slew, s.cross.k) := by rw [h.crossSame]
    refine ⟨by rw [h.port], by rw [h.pen], by rw [h.corr], ?_, hm, hc, by rw [h.dir], by rw [h.coord]⟩
    rw [h.params.1, h.params.2.1, h.params.2.2]
  flags := h.flags

theorem Resolved.kept {s t : State} (h : Resolved s t) : Kept s t := h.correlated.kept

theorem Posted.kept {s t : State} (h : Posted s t) : Kept s t := h.resolved.kept

theorem Directed.kept {s t : State} (h : Directed s t) : Kept s t where
  params := by
    have hd : (t.dir.echoLength, t.dir.echoStyle) = (s.dir.echoLength, s.dir.echoStyle) := by rw [h.dirSame]
    have hv : (t.coord.px, t.coord.py, t.coord.gx, t.coord.gy) = (s.coord.px, s.coord.py, s.coord.gx, s.coord.gy) := by
      rw [h.coord]
    exact ⟨by rw [h.port], by rw [h.pen], by rw [h.corr], by rw [h.res], by rw [h.menu], by rw [h.cross], hd, hv⟩
  flags := h.flags

theorem update_kept (s : State) (c : Cross) : (c.slew, c.k) = (s.cross.slew, s.cross.k) → Kept s (s.setCross c) := by
  intro h
  have h1 : Kept s { s with cross := c } := ⟨⟨rfl, rfl, rfl, rfl, rfl, h, rfl, rfl⟩, fun _ => id⟩
  unfold State.setCross
  dsimp only
  split
  · exact h1
  · exact h1.trans (post_posted _ _ _).kept

theorem crossUpdate_kept (s : State) : Kept s (crossUpdate s) := by
  refine update_kept s _ ?_
  unfold Cross.update Cross.emptied
  dsimp only
  split
  · rfl
  · split
    · rfl
    · split <;> rfl

theorem penReckoning_kept (s : State) : Kept s (penReckoning s) := by
  have h1 : ∀ (u : State) (floods : Nat), Kept u { u with pen := { u.pen with floods := floods } } := fun _ _ =>
    ⟨⟨rfl, rfl, rfl, rfl, rfl, rfl, rfl, rfl⟩, fun _ => id⟩
  have h2 : ∀ (u : State), Kept u { u with pen := { u.pen with muted := true } } := fun _ =>
    ⟨⟨rfl, rfl, rfl, rfl, rfl, rfl, rfl, rfl⟩, fun _ => id⟩
  unfold penReckoning
  split
  · exact .refl s
  · split
    · have h3 := (h1 s (s.pen.floods + 1)).trans (setFlag_posted _ .flood).kept
      dsimp only
      split
      · exact ((h3.trans (h2 _)).trans (setFlag_posted _ .penMuted).kept).trans (loseAttempt_resolved _ .penMuted).kept
      · exact h3
    · exact h1 s 0

theorem follow_dw (m : Menu) (item : Option Nat) : (m.follow item).dw = m.dw := by
  unfold Menu.follow
  dsimp only
  repeat' split
  all_goals rfl

theorem dwellChoice_kept (s : State) (e : FrameSum) : Kept s (s.dwellChoice e) := by
  have h1 : Kept s (State.count { s with res := { s.res with number := s.res.number + 1 } } .attempts) :=
    ⟨⟨rfl, rfl, rfl, rfl, rfl, rfl, rfl, rfl⟩, fun _ => id⟩
  exact h1.trans (menuOutcome_resolved _ _ _ _).kept

theorem menuDwell_kept (s : State) : Kept s (menuDwell s) := by
  have h1 : ∀ (u : State) (m : Menu), m.dw = u.menu.dw → Kept u { u with menu := m } := fun _ _ h =>
    ⟨⟨rfl, rfl, rfl, rfl, h, rfl, rfl, rfl⟩, fun _ => id⟩
  unfold menuDwell
  dsimp only
  split
  · exact h1 s _ (follow_dw _ _)
  · split
    · exact ((h1 s _ (follow_dw _ _)).trans (dwellChoice_kept _ _)).trans (h1 _ _ rfl)
    · exact h1 s _ (follow_dw _ _)

theorem runFrameEndTask_kept (task : FrameEndTask) (s : State) : Kept s (runFrameEndTask task s) := by
  cases task
  · exact penReckoning_kept s
  · exact crossUpdate_kept s
  · exact (resolverCount_resolved s).kept
  · exact menuDwell_kept s

theorem foldl_kept {α : Type} (run : α → State → State) (h : ∀ a s, Kept s (run a s)) (l : List α) (s : State) :
    Kept s (l.foldl (fun t a => run a t) s) := by
  induction l generalizing s with
  | nil => exact .refl s
  | cons a rest ih => exact (h a s).trans (ih _)

/-- The frame's end keeps the parameters and the flags that are set (R9, R10, R15). -/
theorem frameEnds_kept (s : State) (endTime : Nat) (o : FrameEndOrder) : Kept s (s.frameEnds endTime o) := by
  have h1 : Kept s s.discardPulse := by
    rw [discardPulse_eq]
    split
    · exact .refl s
    · exact ⟨⟨rfl, rfl, rfl, rfl, rfl, rfl, rfl, rfl⟩, fun _ => id⟩
  have h2 : ∀ u : State, Kept u (u.closeHistory endTime) := fun _ => ⟨⟨rfl, rfl, rfl, rfl, rfl, rfl, rfl, rfl⟩, fun _ => id⟩
  have h3 : ∀ u : State, Kept u u.frameHits := fun u =>
    (correlateWaiting_correlated u.pen.waiting u rfl).1.kept.trans ⟨⟨rfl, rfl, rfl, rfl, rfl, rfl, rfl, rfl⟩, fun _ => id⟩
  have h4 := ((h1.trans (h2 _)).trans (h3 _)).trans (foldl_kept runFrameEndTask runFrameEndTask_kept (endTasks o) _)
  exact h4.trans ⟨⟨rfl, rfl, rfl, rfl, rfl, rfl, rfl, rfl⟩, fun _ => id⟩

theorem handWithdrawn_kept (s : State) (start : Bool) : Kept s (s.handWithdrawn start) :=
  ⟨⟨rfl, rfl, rfl, rfl, rfl, rfl, rfl, rfl⟩, fun _ => id⟩

theorem copyStack_kept (s : State) : Kept s s.copyStack := by
  have h1 : Kept s { s with menu := { s.menu with current := s.menu.next } } :=
    ⟨⟨rfl, rfl, rfl, rfl, rfl, rfl, rfl, rfl⟩, fun _ => id⟩
  exact h1.trans (copyStack_posted s).kept

theorem menuFrameStart_kept (s : State) : Kept s s.menuFrameStart :=
  (copyStack_kept s).trans ⟨⟨rfl, rfl, rfl, rfl, rfl, rfl, rfl, rfl⟩, fun _ => id⟩

theorem menuDark_kept (s : State) : Kept s s.menuDark :=
  (copyStack_kept s).trans ⟨⟨rfl, rfl, rfl, rfl, rfl, rfl, rfl, rfl⟩, fun _ => id⟩

theorem directoryStart_kept (s : State) : Kept s s.directoryStart :=
  (applyStaged_directed s).1.kept.trans ⟨⟨rfl, rfl, rfl, rfl, rfl, rfl, rfl, rfl⟩, fun _ => id⟩

theorem handStart_kept (s : State) (v : Bool) : Kept s (s.handStart v) := by
  unfold State.handStart
  dsimp only
  split
  · exact (handWithdrawn_kept s true).trans (loseAttempt_resolved _ .viewChanged).kept
  · exact handWithdrawn_kept s true

/-- The frame's start keeps the parameters and the flags that are set (R8). -/
theorem frameStarts_kept (s : State) (seq : Byte) (o : FrameStartOrder) : Kept s (s.frameStarts seq o) := by
  have h1 : Kept s (s.beginFrame seq) := ⟨⟨rfl, rfl, rfl, rfl, rfl, rfl, rfl, rfl⟩, fun _ => id⟩
  have h2 : Kept (s.beginFrame seq) ((s.beginFrame seq).startWork o) := by
    cases o
    · exact ((menuFrameStart_kept _).trans (directoryStart_kept _)).trans (handStart_kept _ _)
    · exact ((directoryStart_kept _).trans (menuFrameStart_kept _)).trans (handStart_kept _ _)
    · exact ((directoryStart_kept _).trans (handStart_kept _ _)).trans (menuFrameStart_kept _)
  exact (h1.trans h2).trans ⟨⟨rfl, rfl, rfl, rfl, rfl, rfl, rfl, rfl⟩, fun _ => id⟩

theorem runDarkTask_kept (task : DarkTask) (s : State) : Kept s (runDarkTask task s) := by
  cases task
  · exact (applyStaged_directed s).1.kept.trans (handWithdrawn_kept _ false)
  · exact (loseAttempt_resolved s .noFrames).kept
  · exact menuDark_kept s

/-- The entry into DARK keeps the parameters and the flags that are set (R15). -/
theorem enterDark_kept (s : State) (o : DarkOrder) : Kept s (s.enterDark o) := by
  have h1 : Kept s { s with port := { s.port with mode := .dark, absence := 0 } } :=
    ⟨⟨rfl, rfl, rfl, rfl, rfl, rfl, rfl, rfl⟩, fun _ => id⟩
  exact (h1.trans (setFlag_posted _ .dark).kept).trans (foldl_kept runDarkTask runDarkTask_kept (darkTasks o) _)

end Sys2Proof.Machine
end

