-- ==== Sys2Proof/Laws/Time.lean ====
section
/-! SUPPORT. What a tick does in which no timed event falls due, and which event is due. -/

namespace Sys2Proof.Machine

/-- The event that `nextOf` chooses is due when it says. -/
theorem nextOf_due {s : State} {l : List TimedEvent} {e : TimedEvent} {n : Nat} (h : s.nextOf l = some (e, n)) :
    s.due e = some n := by
  induction l generalizing e n with
  | nil => cases h
  | cons a rest ih =>
    unfold State.nextOf at h
    cases hd : s.due a with
    | none =>
      rw [hd] at h
      exact ih h
    | some k =>
      rw [hd] at h
      cases hr : s.nextOf rest with
      | none =>
        simp only [hr, Option.some.injEq, Prod.mk.injEq] at h
        exact h.1 ▸ h.2 ▸ hd
      | some fm =>
        simp only [hr] at h
        split at h
        · exact ih (hr.trans h)
        · simp only [Option.some.injEq, Prod.mk.injEq] at h
          exact h.1 ▸ h.2 ▸ hd

/-- A tick in which nothing falls due only lets the counters and timers run. -/
theorem advance_one_of_nothing_due {s : State} (h : ∀ e, s.due e ≠ some 0) : s.advance 1 = s.elapse 1 := by
  have hs : s.advance 1 = State.advanceBy 5 1 s := rfl
  rw [hs]
  unfold State.advanceBy
  cases hn : s.nextOf timedEvents with
  | none => exact Eq.refl _
  | some en =>
    have hd := nextOf_due hn
    exact if_neg (fun hlt => h en.1 (hd.trans (congrArg some (Nat.lt_one_iff.mp hlt))))

end Sys2Proof.Machine
end

