-- ==== Sys2Proof/Tests/Slice0.lean ====
section
/-! SUPPORT. Tests: ill-formed commands that WellFormed refuses; worked examples and tables of the specification on small
states; and, for every obligation with hypotheses, a concrete state and operands that meet them. -/

namespace Sys2Proof.Tests

set_option Elab.async false

open Sys2Proof.Machine

/-! ## Helpers -/

/-- The state a command leads to. -/
def after (c : Instr) (s : State) : State :=
  match exec c s with
  | .next t => t
  | .fault _ => s
  | .refused _ => s

/-- A stroke from four coordinates. -/
def line (x0 y0 x1 y1 : Nat) : Stroke :=
  { x0 := BitVec.ofNat 12 x0, y0 := BitVec.ofNat 12 y0, x1 := BitVec.ofNat 12 x1, y1 := BitVec.ofNat 12 y1 }

/-- A link whose transmitter, queue and slot are free, with the reset mask. -/
def freeLink : LinkUnit := { LinkUnit.afterReset .powerOn with tx := none }

/-- The part with both links free. -/
def idle : State := { State.reset with links := { State.reset.links with u0 := freeLink, u1 := freeLink } }

/-- The part in a frame at a frame time. -/
def inFrameAt (t : Nat) : State :=
  { idle with
    port := { idle.port with mode := .inFrame, frameTime := t, absence := t }
    hist := { idle.hist with isOpen := true }
    corr := { idle.corr with frameDone := false, frame := 1 } }

/-- A DRAWING entry of link 0, visible, granularity SEGMENT. -/
def drawn (tag : Nat) (detectable : Bool) : Entry :=
  { owner := .single .link0, cls := .drawing, tag := BitVec.ofNat 16 tag, visible := true, detectable := detectable,
    intensity := 3, highlight := .none, priority := 2, granularity := .segment, binding := none }

/-- A MENU entry of link 1 with a binding. -/
def item (page : BoundPage) (action : MenuAction) : Entry :=
  { owner := .single .link1, cls := .menu, tag := 7, visible := true, detectable := true, intensity := 3,
    highlight := .none, priority := 0, granularity := .segment,
    binding := some { page := page, action := action, notify := false } }

/-! ## WellFormed refuses -/

theorem test_payload_too_long_is_ill_formed :
    WellFormed (.linkFrameComplete 0 .link0 false 0x20 (List.replicate 61 0)) = false := by decide +kernel

theorem test_failure_with_short_is_ill_formed : WellFormed (.frameFailed 0 .link0 .short) = false := by decide +kernel

theorem test_unknown_type_of_a_command_is_ill_formed : WellFormed (.unknownType 0 .link1 false 0x22) = false := by decide +kernel

/-! ## Layouts (chapter 12) -/

theorem test_ident_frame_bytes : frameBytes (encodeCommand .ident) = [0xC3, 0xA0, 0x00, 0x66] := by decide +kernel

theorem test_zero_word_is_the_undrawn_answer : segmentAnswer false 0 .none = 0 := by decide +kernel

theorem test_vector_words :
    vectorWords true (line 1500 900 1500 1300) = [0xC001, 1500, 900, 1500, 1300] := by decide +kernel

theorem test_decode_ident : decodeFrame { dir := false, mtype := 0x20, payload := [] } = .command .ident := by decide +kernel

theorem test_decode_crossPlace :
    decodeFrame { dir := false, mtype := 0x11, payload := [0x13, 0x88, 0x01, 0x2C] } = .command (.crossPlace 5000 300) := by
  decide +kernel

theorem test_decode_wrong_length : decodeFrame { dir := false, mtype := 0x20, payload := [0] } = .badLength 0x20 := by decide +kernel

theorem test_decode_inbound_reply : decodeFrame { dir := true, mtype := 0x20, payload := [] } = .unknown 0x20 := by decide +kernel

/-! ## The stroke history (3.10) -/

/-- The entries a to k of section 3.10. -/
def lossEntries : List FifoEntry :=
  [ { record := .segmentOpen 210, stamp := 120000, lost := false, gapStart := none },
    { record := .vector false (line 0 0 1500 900), stamp := 120004, lost := false, gapStart := none },
    { record := .vector true (line 1500 900 1500 1300), stamp := 120030, lost := false, gapStart := none },
    { record := .vector true (line 1500 1300 1620 1300), stamp := 120075, lost := false, gapStart := none },
    { record := .vector true (line 0 0 0 0), stamp := 120190, lost := true, gapStart := some 120140 },
    { record := .segmentClose, stamp := 120240, lost := true, gapStart := none },
    { record := .segmentOpen 211, stamp := 120250, lost := false, gapStart := none },
    { record := .vector true (line 300 700 300 710), stamp := 120251, lost := false, gapStart := none },
    { record := .vector true (line 300 710 300 900), stamp := 120251, lost := false, gapStart := none },
    { record := .segmentClose, stamp := 120300, lost := false, gapStart := none },
    { record := .vector true (line 40 40 200 40), stamp := 120310, lost := false, gapStart := none } ]

theorem test_loss_inside_a_segment :
    ((lossEntries.foldl History.takeEntry State.reset.hist.frameStart).frameEnd 120360 none).ring.map
        (fun r => (r.kind, r.seg, r.element.map (fun m => m.index), r.start, r.stop))
      = [ (.move, none, none, 120004, some 120030), (.vector, some 210, some 0, 120030, some 120075),
          (.vector, some 210, some 1, 120075, some 120140), (.gap, none, none, 120140, some 120250),
          (.vector, some 211, some 0, 120251, some 120251), (.vector, some 211, some 1, 120251, some 120310),
          (.vector, none, none, 120310, some 120360) ] := by
  decide +kernel

/-! ## Correlation (5.3, 5.7, 5.11) -/

theorem test_distance_table :
    (spanDistance 40025 40010 40021, spanDistance 40025 40031 40050, spanDistance 40025 40000 40070) = (5, 6, 0) := by
  decide +kernel

/-- A stroke read from the ring for the table of R89. -/
def readFor (p : Stroke) (ts te : Nat) : ReadStroke :=
  { seg := 1, element := { index := 0, saturated := false }, start := ts, stop := te, stroke := p, distance := 0 }

theorem test_beam_point_table :
    [ (readFor (line 1200 800 1800 1100) 40000 40070).beamPoint 40025,
      (readFor (line 1800 800 1200 1100) 40000 40070).beamPoint 40025,
      (readFor (line 1200 800 1800 1100) 40000 40070).beamPoint 39990,
      (readFor (line 1200 800 1800 1100) 40000 40070).beamPoint 40081,
      (readFor (line 100 50 103 47) 7000 7002).beamPoint 7001 ]
      = [ { x := 1414, y := 907 }, { x := 1586, y := 907 }, { x := 1200, y := 800 }, { x := 1800, y := 1100 },
          { x := 102, y := 48 } ] := by
  decide +kernel

/-- A VECTOR record of a segment. -/
def stroked (seg element start : Nat) (stop : Option Nat) (p : Stroke) : HistoryRecord :=
  { kind := .vector, seg := some seg, element := some { index := element, saturated := false }, start := start,
    stop := stop, stroke := some p }

/-- Section 5.11 at its second event: the ring, the directory, and a hit of time 300,050 waiting. -/
def bilge : State :=
  let s := inFrameAt 300060
  { s with
    hist :=
      { s.hist with
        ring :=
          [ stroked 131 7 300010 (some 300026) (line 1500 590 1504 618),
            stroked 134 0 300026 (some 300027) (line 1506 600 1507 604),
            stroked 132 7 300027 (some 300031) (line 1510 612 1514 640),
            stroked 1023 2 300031 (some 300034) (line 1496 620 1532 620),
            stroked 133 2 300034 (some 300034) (line 1518 590 1520 600),
            stroked 133 3 300034 (some 300060) (line 1520 600 1560 880),
            stroked 131 8 300060 none (line 1504 618 1509 650) ] }
    dir := { s.dir with entries := [(131, drawn 531 true), (132, drawn 532 true), (133, drawn 533 true), (134, drawn 534 false)] }
    cross := { s.cross with state := .lost }
    res := { s.res with attempt := .gathering, number := 7 }
    corr := { s.corr with newestStart := some 300060 }
    pen := { s.pen with waiting := [300050] } }

theorem test_correlation_of_one_hit :
    bilge.releaseTest.res.tally.map (fun e => (e.key, e.score, e.priority, e.route, e.lastPoint, e.lastElement))
      = [ ({ seg := 132, element := none }, 6, 2, .single .link0, { x := 1513, y := 633 }, 7),
          ({ seg := 133, element := none }, 6, 2, .single .link0, { x := 1520, y := 600 }, 3) ] := by
  decide +kernel

theorem test_cross_arm_of_one_hit : (bilge.releaseTest.cross.hSum, bilge.releaseTest.cross.hCount) = (1496, 1) := by decide +kernel

theorem test_short_read_is_unmatched :
    let s := { bilge with hist := { bilge.hist with wrapped := true, ring := bilge.hist.ring.drop 1 } }
    (s.releaseTest.stats.unmatched, flagSet s.releaseTest.flags .historyShort, s.releaseTest.res.tally) = (1, true, []) := by
  decide +kernel

/-! ## Resolution (6.8) -/

/-- A tally entry of section 6.8. -/
def vote (seg tag score hits : Nat) (p : ScreenPoint) (element : Nat) : TallyEntry :=
  { key := { seg := seg, element := none }, cls := .drawing, priority := 2, route := .single .link0,
    tag := BitVec.ofNat 16 tag, score := score, hits := hits, framesSeen := hits, lastFrame := 82, lastPoint := p,
    lastElement := element, saturated := false }

/-- Section 6.8 before its ninth event. -/
def threeFrames (score132 : Nat) : State :=
  let s := inFrameAt 400000
  { s with
    pen := { s.pen with tipRaw := .down, tipDebounced := .down }
    dir := { s.dir with entries := [(131, drawn 531 true), (132, drawn 532 true)] }
    res :=
      { s.res with
        attempt := .gathering, number := 7, frames := 2,
        tally := [vote 131 531 36 3 { x := 1508, y := 643 } 8, vote 132 532 score132 2 { x := 1514, y := 636 } 7] } }

/-- The notice of section 6.8. -/
def bilgeNotice : PickNotice :=
  { kind := .element, attempt := 7, frames := 3, reason := .absent,
    flags :=
      { gap := false, overflow := false, withdrawn := false, elementSaturated := false, saturated := false, snapped := false,
        dwell := false },
    primary :=
      some
        { source := .none,
          picked :=
            some
              { seg := 131, whole := true, element := 8, saturated := false, tag := 531, score := 36, hits := 3,
                framesSeen := 3 },
          screen := { x := 1508, y := 643 }, loftX := -540, loftY := -1405 },
    list := [] }

theorem test_outcome_element :
    (after (.frameClose 0 defaultEndOrder) (threeFrames 24)).links.u0.tx
      = some (.notice { notice := .pick bilgeNotice, lossBefore := false }) := by
  decide +kernel

theorem test_outcome_leaves_held_and_echo :
    let t := after (.frameClose 0 defaultEndOrder) (threeFrames 24)
    (t.res.attempt, t.res.tally, t.stats.picks, t.dir.echoes, t.links.u1.tx)
      = (.held, [], 1, [{ seg := 131, count := 10 }], none) := by
  decide +kernel

theorem test_outcome_ambiguous :
    (decideOutcome { (threeFrames 36).res with frames := 3 } .parked
      = .ambiguous [vote 131 531 36 3 { x := 1508, y := 643 } 8, vote 132 532 36 2 { x := 1514, y := 636 } 7]) := by
  decide +kernel

theorem test_margin_of_zero_takes_the_lower_segment :
    (decideOutcome { (threeFrames 36).res with d := 0 } .parked = .element (vote 131 531 36 3 { x := 1508, y := 643 } 8)) := by
  decide +kernel

theorem test_point_mode :
    (decideOutcome { (threeFrames 24).res with mode := .point } .tracking,
      decideOutcome { (threeFrames 24).res with mode := .point } .parked)
      = (.pointFromCross, .pointFromLeader (vote 131 531 36 3 { x := 1508, y := 643 } 8)) := by
  decide +kernel

/-! ## The filter list (7.6, 7.7) -/

/-- A filter entry of section 7.6. -/
def filterOf (author : Link) (enabled : Bool) (menu : Bool) (lo hi : Nat) (value mask : Word) (action : FilterAction)
    (final : Bool) : FilterEntry :=
  { author := author, enabled := enabled, matchDrawing := true, matchMenu := menu, segLow := lo, segHigh := hi,
    tagValue := value, tagMask := mask, action := action, final := final }

/-- The list of section 7.6. -/
def fairing : List FilterEntry :=
  [ filterOf .link0 true false 132 132 0 0 (.route .both) false,
    filterOf .link0 true false 130 139 0 0 (.priority 3) true,
    filterOf .link1 true false 0 1022 40000 65535 .reject false,
    filterOf .link0 false true 0 1022 0 0 .reject true,
    filterOf .link0 true false 0 1022 0 0 (.priority 1) false ]

theorem test_filter_walks :
    [ walk { seg := 131, cls := .drawing, tag := 531, owner := .single .link0 } fairing 2 (.single .link0),
      walk { seg := 132, cls := .drawing, tag := 532, owner := .single .link0 } fairing 2 (.single .link0),
      walk { seg := 140, cls := .drawing, tag := 40000, owner := .both } fairing 2 .both,
      walk { seg := 950, cls := .menu, tag := 7, owner := .single .link1 } fairing 0 (.single .link1) ]
      = [.stands 3 (.single .link0), .stands 3 .both, .rejected, .stands 0 (.single .link1)] := by
  decide +kernel

/-- The part with the list of section 7.6 and its edit count. -/
def fairingState : State := { idle with filt := { entries := fairing, editCount := 17 } }

theorem test_filter_delete_denied :
    (filterDeleteWork .link1 0 fairingState) = (fairingState, { mtype := 0x0A, code := .denied, values := [] }) := by decide +kernel

theorem test_filter_insert_clamped :
    let a : FilterInsertArgs :=
      { index := 1, enabled := 1, classMatch := 2, segLow := 900, segHigh := 1022, tagValue := 0, tagMask := 0, action := 1,
        arg := 9, final := 0 }
    (filterInsertWork .link1 a fairingState).2 = { mtype := 0x09, code := .clamped, values := [1, 18] } := by
  decide +kernel

theorem test_link_reset_drops_filters :
    (fairingState.dropFiltersOf .link0).filt.editCount = 18
      ∧ (fairingState.dropFiltersOf .link0).filt.entries.map (fun e => e.author) = [.link1] := by
  decide +kernel

/-! ## Conversions (10.6) -/

theorem test_conversion_of_a_turned_plan :
    (Coord.convert
        { view := { orientation := .deg90, ox := 1234500, oy := 45000, sc := 1000 }, px := 7000, py := 0, gx := 1225000,
          gy := 0 } { x := 1000, y := 3000 })
      = { x := 1239000, y := 49090, saturated := false, snapped := true } := by
  decide +kernel

theorem test_window_offsets :
    (window 0 1000 100, window 0 128 2049, window 0 128 2048, window 0 128 2047) = (-7609, 1, 0, -1) := by decide +kernel

theorem test_snap_at_the_half : (snap 7000 0 (-17500), snap 7000 0 17500) = (-21000, 21000) := by decide +kernel

theorem test_saturation :
    (saturate (window 2147000000 16777215 4095), saturate (snap 1000 0 2147483600)) = (2147483647, 2147483647) := by decide +kernel

/-! ## The cross (9.8) -/

/-- The cross of section 9.8 with a frame's sums. -/
def crossWith (x y hSum hCount vSum vCount : Nat) : Cross :=
  { state := .tracking, x := x, y := y, miss := 0, hSum := hSum, hCount := hCount, vSum := vSum, vCount := vCount,
    slew := 64, k := 8 }

theorem test_cross_slew :
    [(crossWith 1000 600 2371 2 612 1).update, (crossWith 1064 612 3571 3 0 0).update, (crossWith 1128 612 1150 1 1241 2).update]
      = [crossWith 1064 612 0 0 0 0, crossWith 1128 612 0 0 0 0, crossWith 1150 621 0 0 0 0] := by
  decide +kernel

theorem test_cross_loss :
    ({ crossWith 1150 621 0 0 0 0 with miss := 7 } : Cross).update
      = { crossWith 1150 621 0 0 0 0 with miss := 8, state := .lost } := by
  decide +kernel

/-! ## Dwell (8.5) -/

/-- Frame 204 of section 8.5 before its end. -/
def dwelling : State :=
  let s := inFrameAt 400000
  { s with
    dir := { s.dir with entries := [(950, item (.page 0) (.page 2)), (951, item .all .back)] }
    res := { s.res with number := 7 }
    menu :=
      { s.menu with
        leading := some 950, dwellCount := 2, dw := 3,
        sums :=
          [{ seg := 950, weight := 12, hits := 1, route := .single .link1, tag := 7, point := { x := 0, y := 0 }, element := 0,
             saturated := false, gap := false }] } }

theorem test_dwell_choice :
    let t := after (.frameClose 0 defaultEndOrder) dwelling
    (t.res.number, t.menu.next, t.menu.current, t.menu.latched, t.menu.dwellCount) = (8, [2], [], some 950, 0)
      ∧ (t.stats.attempts, t.stats.picks, t.dir.echoes, t.links.u1.tx) = (1, 1, [{ seg := 950, count := 10 }], none) := by
  decide +kernel

/-! ## A full queue (11.10) -/

/-- Link 1 of section 11.10: 31 notices queued and one being sent. -/
def fullLink : LinkUnit :=
  let q : QueuedNotice := { notice := .restarted .powerOn, lossBefore := false }
  { freeLink with tx := some (.notice q), queue := List.replicate 31 q }

/-- The part of section 11.10. -/
def console : State := { idle with flags := 0, links := { idle.links with u1 := fullLink } }

theorem test_full_queue_first_event :
    let t := after (.modeSet 0 .link1 1) console
    (t.links.u1.slot, t.links.u1.queue.length, t.links.u1.lossMark, t.links.u0.tx)
      = (some { mtype := 0x19, code := .ok, values := [] }, 32, false,
          some (.notice { notice := .mode .point (.single .link1), lossBefore := false })) := by
  decide +kernel

theorem test_full_queue_drop :
    let t := (after (.modeSet 0 .link1 1) console).post (.single .link1) (.restarted .powerOn)
    (t.links.u1.queue.length, t.links.u1.lossMark, flagSet t.flags (.queueLoss .link1), t.links.u0.queue)
      = (32, true, true, [{ notice := .condition 0b10000000000#11, lossBefore := false }]) := by
  decide +kernel

/-! ## A skipped change (2.10) -/

/-- After event 4 of section 2.10: link 1's SEG_SET alone on the list, a sweep for link 0 pending. -/
def skipping : State :=
  let s := inFrameAt 1000
  { s with
    dir :=
      { s.dir with
        entries := [(701, drawn 1 true)]
        sweeps := .single .link0
        changes :=
          [{ issuer := .link1,
             op := .set 700 { tag := none, visible := none, detectable := none, intensity := some 3, highlight := some .dash,
                              priority := none, granularity := none } }] } }

theorem test_skipped_change :
    let t := after (.frameOpen 0 41 defaultEndOrder .menuLast) skipping
    (t.dir.entries, t.dir.withdrawn, flagSet t.flags .changeSkipped, t.dir.changes) = ([], [701], true, [])
      ∧ (t.links.u1.queue.map (fun q => q.notice)).getLast? = some (.skipped .denied 0x02 (some 700) 41) := by
  decide +kernel

/-! ## Pulses (4.9) -/

theorem test_narrow_pulse :
    (after (.pulseEnd 2) (after (.pulseLeadingEdge 0 true) (inFrameAt 200000))).stats.narrow = 1 := by decide +kernel

theorem test_pulse_qualifies :
    let t := after .pulseQualify (after (.pulseLeadingEdge 0 true) (inFrameAt 200010))
    (t.pen.lastHit, t.pen.hitCount, t.pen.waiting, t.port.frameTime, t.stats.hits) = (some 200010, 1, [200010], 200013, 1) := by
  decide +kernel

theorem test_dead_pulse :
    let s := inFrameAt 200025
    (after (.pulseLeadingEdge 0 true) { s with pen := { s.pen with lastHit := some 200010 } }).stats.dead = 1 := by
  decide +kernel

/-! ## Characters (11.2) -/

theorem test_ident_by_characters :
    let t := after (.characterTaken 0 .link1 0x66 true) (after (.characterTaken 0 .link1 0x00 true)
      (after (.characterTaken 0 .link1 0xA0 true) (after (.characterTaken 0 .link1 0xC3 true) idle)))
    t.links.u1.tx = some (.reply { mtype := 0x20, code := .ok, values := [0x54, 0x01, 0xA2, 0x42, 0x00] }) := by
  decide +kernel

theorem test_gap_fails_short :
    let t := after (.gapTimerExpiry .link0) (after (.characterTaken 0 .link0 0xC3 true) idle)
    (t.links.u0.rx, flagSet t.flags (.frameError .link0), t.links.u0.slot)
      = (.hunting, true, some { mtype := 0x00, code := .reject, values := [4] }) := by
  decide +kernel

/-! ## Witnesses: for each statement with hypotheses, states and operands that meet all of them, clause by clause -/

/-- The part in a frame with a FIFO of some entries. -/
def fifoOf (n : Nat) (openSeg : Option Nat) (resync : Bool) : State :=
  let s := inFrameAt 50
  { s with
    port :=
      { s.port with
        openSeg := openSeg, resync := resync
        fifo := List.replicate n { record := .segmentClose, stamp := 40, lost := resync, gapStart := none } } }

/-- The part between frames. -/
def between : State := { idle with port := { idle.port with mode := .between, frameTime := 90, absence := 90 } }

/-- The part in an attempt state, with the tip DOWN. -/
def attempting (a : AttemptState) (waiting : List Nat) : State :=
  let s := inFrameAt 60
  { s with res := { s.res with attempt := a }, pen := { s.pen with tipRaw := .down, tipDebounced := .down, waiting := waiting } }

/-- A link that sends a notice. -/
def sendingLink : LinkUnit := { freeLink with tx := some (.notice { notice := .restarted .powerOn, lossBefore := false }) }

/-- A queue of notices. -/
def notices (n : Nat) : List QueuedNotice := List.replicate n { notice := .restarted .powerOn, lossBefore := false }

/-- The part with one unit at link 0. -/
def withLink (u : LinkUnit) : State := { idle with links := { idle.links with u0 := u } }

/-- The reply that stands in slots of tests. -/
def someReply : Reply := { mtype := 0x20, code := .ok, values := [] }

/-- The frame of IDENT. -/
def identFrame : Frame := { dir := false, mtype := 0x20, payload := [] }

/-- A pulse in progress that has stood some ticks. -/
def pulsed (stood hitCount waiting : Nat) (newest : Option Nat) : State :=
  let s := inFrameAt 70
  { s with
    pen :=
      { s.pen with
        line := true, enable := true, hitCount := hitCount, waiting := List.replicate waiting 5
        pulse := some { lead := 68, frame := 1, wmin := 3, stood := stood } }
    corr := { s.corr with newestStart := newest } }

/-- A vector record of the history. -/
def strokeRecord (start : Nat) (stop : Option Nat) : HistoryRecord :=
  { kind := .vector, seg := some 5, element := some { index := 0, saturated := false }, start := start, stop := stop,
    stroke := some (line 0 0 10 0) }

/-- A tally entry of class and score. -/
def ballot (cls : SegClass) (seg priority score : Nat) : TallyEntry :=
  { key := { seg := seg, element := none }, cls := cls, priority := priority, route := .both, tag := 0, score := score,
    hits := 1, framesSeen := 1, lastFrame := 1, lastPoint := { x := 0, y := 0 }, lastElement := 0, saturated := false }

theorem witness_reset_is_bounded : State.reset.Bounded := by
  constructor <;> (first | decide | (intro n; cases n <;> decide))

theorem witness_reset_is_in_range : State.reset.InRange := by
  constructor <;> (first | decide | (unfold View.scaled; decide) | (intro c h; cases h))

theorem witness_reset_is_coherent : State.reset.Coherent := by constructor <;> decide

theorem witness_reset_directory_is_formed : State.reset.DirectoryFormed := ⟨by decide, fun _ h => by cases h⟩

theorem witness_reset_is_served : State.reset.LinksServed := by constructor <;> (intro n; cases n <;> decide)

/-- A step from reset answers a next state, so the invariants' hypotheses are met together. -/
theorem witness_step_from_reset : State.reset.pending = [] ∧ ∃ t, step State.reset = .next t := ⟨rfl, _, rfl⟩

/-- StepRunsCommandAtFront, EveryStepGoesOn: a queue of one command. -/
theorem witness_step_runs_ident :
    step { idle with pending := [.ident 0 .link0] } = exec (.ident 0 .link0) idle := rfl

theorem witness_idle_is_ready : ∀ n, idle.Ready n := by intro n; cases n <;> exact ⟨rfl, rfl, rfl⟩

theorem witness_in_frame_is_ready : ∀ n, (inFrameAt 50).Ready n := by intro n; cases n <;> exact ⟨rfl, rfl, rfl⟩

theorem witness_idle_is_roomy : idle.Roomy := by intro n; cases n <;> decide

theorem witness_no_ticks_pass : (inFrameAt 50).advance 0 = inFrameAt 50 ∧ idle.advance 0 = idle := ⟨rfl, rfl⟩

theorem witness_longest_frame :
    (List.replicate 60 0x55#8).length ≤ Config.payloadLimit
      ∧ feed .hunting (frameBytes { dir := false, mtype := 0x3F, payload := List.replicate 60 0x55 })
        = .completes { dir := false, mtype := 0x3F, payload := List.replicate 60 0x55 } := by
  decide +kernel

theorem witness_flag_set_and_clear :
    flagSet idle.flags .dark = true ∧ flagSet idle.flags (.queueLoss .link1) = false := by decide

theorem witness_notice_joins_or_is_dropped :
    enables 0 (.mode .point .both) = false ∧ enables resetMask (.mode .point .both) = true ∧ (notices 31).length < 32
      ∧ 32 ≤ ((withLink { freeLink with queue := notices 32 }).unit .link0).queue.length
      ∧ flagSet (withLink { freeLink with queue := notices 32 }).flags (.queueLoss .link0) = false
      ∧ flagSet 0b01000000000#11 (.queueLoss .link0) = true := by
  decide

theorem witness_transmitter :
    sendingLink.tx ≠ none ∧ freeLink.busy = false ∧ freeLink.tx = none ∧ freeLink.slot = none ∧ freeLink.queue = []
      ∧ ({ freeLink with slot := some someReply } : LinkUnit).slot = some someReply ∧ notices 2 ≠ [] := by
  decide

theorem witness_record_joins :
    (fifoOf 15 none true).dropAnswers.port.mode = .inFrame ∧ (fifoOf 15 none true).dropAnswers.port.fifo.length < 16
      ∧ (fifoOf 15 (some 7) false).dropAnswers.port.openSeg ≠ none
      ∧ (after (.segmentOpen 0 9) (fifoOf 15 none true)).port.fifo.length = 16
      ∧ (after (.segmentOpen 0 9) (fifoOf 15 none true)).port.resync = false := by
  decide +kernel

theorem witness_record_dropped :
    (fifoOf 16 (some 7) false).dropAnswers.port.mode = .inFrame ∧ 16 ≤ (fifoOf 16 (some 7) false).dropAnswers.port.fifo.length
      ∧ (fifoOf 16 (some 7) false).dropAnswers.port.openSeg ≠ none
      ∧ (after (.segmentClose 0) (fifoOf 16 (some 7) false)).port.pendingGap = some 50
      ∧ (after (.vector 0 0 true (line 0 0 1 1)) (fifoOf 16 (some 7) true)).port.pendingGap = none := by
  decide +kernel

theorem witness_record_out_of_place :
    idle.dropAnswers.port.mode ≠ .inFrame ∧ between.boundary.port.mode ≠ .inFrame
      ∧ (fifoOf 0 none false).dropAnswers.port.openSeg = none := by
  decide +kernel

theorem witness_answers :
    ({ idle with port := { idle.port with answers := [1, 2] } } : State).port.answers = [1, 2] ∧ idle.port.answers = []
      ∧ (after (.answerRead 0) { idle with port := { idle.port with answers := [1, 2] } }).answerOut = 1 := by
  decide +kernel

theorem witness_stray_words :
    wordMarked 0x7FFF = false ∧ idle.port.assembler = none ∧ wordMarked 0x8000 = true ∧ wordKind 0x8FFF = 0 ∧ wordKind 0xE000 = 6
      ∧ wordKind 0xF000 = 7 ∧ wordKind 0xC001 = 4
      ∧ (after (.strayWord 0 0xC001) idle).port.assembler = some { stamp := 0, beam := true, words := [] } := by
  decide +kernel

theorem witness_frames :
    (inFrameAt 50).abandonRecord.boundary.port.mode = .inFrame ∧ between.abandonRecord.boundary.port.mode = .between
      ∧ idle.port.mode = .dark := by
  decide +kernel

theorem witness_frame_time_limit :
    ({ inFrameAt 0 with port := { (inFrameAt 0).port with ta := 1000 } } : State).port.frameTime ≤ Config.frameTimeLimit
      ∧ Config.frameTimeLimit - 0 ≤ 1000 * Config.ticksPerMs - 0 := by
  decide

theorem witness_history_entries :
    (fifoOf 0 none false).port.fifo = [] ∧ (fifoOf 2 none false).port.fifo ≠ [] ∧ (fifoOf 2 none false).pen.waiting = [] := by
  decide

theorem witness_strokes :
    ({ State.reset.hist with elementCount := 4096, openSeg := some 5, ring := [strokeRecord 3 none] } : History).gapOpen = false
      ∧ State.reset.hist.ring = [] ∧ [strokeRecord 3 none] = [] ++ [strokeRecord 3 none]
      ∧ ((({ State.reset.hist with elementCount := 4096, openSeg := some 5, ring := [strokeRecord 3 none] } : History).takeEntry
          { record := .vector true (line 0 0 1 1), stamp := 9, lost := false, gapStart := none }).ring.map (fun r => r.element))
        = [some { index := 0, saturated := false }, some { index := 4095, saturated := true }] := by
  decide +kernel

theorem witness_open_gap :
    ({ State.reset.hist with gapOpen := true, ring := [gapRecord 3 none] } : History).ring = [] ++ [gapRecord 3 none]
      ∧ (gapRecord 3 none).stop = none := by
  decide

theorem witness_leading_edges :
    (pulsed 0 0 0 none).pen.line = true ∧ idle.pen.line = false ∧ idle.port.mode ≠ .inFrame ∧ (inFrameAt 39).pen.muted = false
      ∧ (inFrameAt 39).port.frameTime < 10 + (inFrameAt 39).pen.dd ∧ 10 + (inFrameAt 40).pen.dd ≤ (inFrameAt 40).port.frameTime := by
  decide

theorem witness_pulses :
    (pulsed 0 0 0 none).pen.pulse ≠ none ∧ (pulsed 2 64 0 none).port.mode = .inFrame
      ∧ 3 - 2 ≤ (pulsed 2 64 0 none).port.ta * Config.ticksPerMs - (pulsed 2 64 0 none).port.absence
      ∧ (pulsed 2 64 0 none).pen.f ≤ (pulsed 2 64 0 none).pen.hitCount ∧ (pulsed 2 63 4 none).pen.hitCount < 64
      ∧ 4 ≤ (pulsed 2 63 4 none).pen.waiting.length ∧ (pulsed 2 63 3 none).pen.waiting.length < 4
      ∧ (after .pulseQualify (pulsed 2 63 3 none)).pen.waiting = [5, 5, 5, 68] := by
  decide +kernel

theorem witness_tip :
    idle.pen.tipRaw = .up ∧ (after (.tipLevelChange 0 .down) idle).pen.tipTimer = some 0
      ∧ (after .tipDebounceExpiry (after (.tipLevelChange 0 .down) idle)).pen.tipDebounced = .down := by
  decide +kernel

theorem witness_attempts :
    (attempting .gathering [5]).pen.tipDebounced = .down ∧ (attempting .gathering [5]).pen.waiting ≠ []
      ∧ (attempting .idle []).tipDown.res.attempt = .gathering ∧ (attempting .gathering [5]).tipUp.res.attempt = .closing
      ∧ (attempting .held []).tipUp.res.attempt = .idle ∧ (attempting .idle []).pen.muted = false
      ∧ ({ idle with pen := { idle.pen with tipDebounced := .down } } : State).tipDown.res.attempt = .held := by
  decide +kernel

theorem witness_floods :
    (penReckoning { (inFrameAt 9) with pen := { (inFrameAt 9).pen with flooded := true, floods := 4 } }).pen.muted = false
      ∧ (penReckoning { (inFrameAt 9) with pen := { (inFrameAt 9).pen with flooded := true, floods := 5 } }).pen.muted = true := by
  decide +kernel

theorem witness_decisions :
    topGroup [ballot .drawing 3 2 24, ballot .menu 9 8 12] = [ballot .menu 9 8 12]
      ∧ topGroup [ballot .drawing 3 2 24, ballot .drawing 4 2 12] = [ballot .drawing 3 2 24, ballot .drawing 4 2 12]
      ∧ decideOutcome { State.reset.res with tally := [ballot .drawing 3 2 24, ballot .drawing 4 2 12] } .parked
        = .element (ballot .drawing 3 2 24)
      ∧ decideOutcome { State.reset.res with tally := [ballot .drawing 3 2 24, ballot .drawing 4 2 13] } .parked
        = .ambiguous [ballot .drawing 3 2 24, ballot .drawing 4 2 13]
      ∧ decideOutcome { State.reset.res with tally := [ballot .drawing 3 2 23] } .parked = .missedWeak
      ∧ decideOutcome { State.reset.res with tally := [], mode := .point } .tracking = .pointFromCross := by
  decide +kernel

theorem witness_receiver_bytes :
    (0xA0#8).getLsbD 7 ≠ (0xA0#8).getLsbD 6 ∧ (0xC3#8).getLsbD 7 = (0xC3#8).getLsbD 6 ∧ 60 < (61#8).toNat ∧ (60#8).toNat ≤ 60
      ∧ Receiver.take (.receiving [0xA0, 0] 0) 0x66 = .completes identFrame
      ∧ Receiver.take (.receiving [0xA0] 0) 61 = .fails .length ∧ Receiver.take .hunting 0 = .goesOn .hunting := by
  decide +kernel

theorem witness_frame_arrivals :
    Config.payloadLimit < (List.replicate 61 0#8).length ∧ 2 ≤ ({ freeLink with inbound := [identFrame, identFrame] } : LinkUnit).inbound.length
      ∧ ({ freeLink with slot := some someReply, inbound := [identFrame] } : LinkUnit).slot ≠ none
      ∧ decodeFrame { identFrame with mtype := 0x23 } = .unknown 0x23 ∧ decodeFrame { identFrame with payload := [0] } = .badLength 0x20
      ∧ 0x22 < (0x23#6).toNat := by
  decide

theorem witness_failures :
    (((withLink { sendingLink with slot := some someReply }).setFlag (.frameError .link0)).unit .link0).slot ≠ none
      ∧ ((idle.setFlag (.frameError .link0)).unit .link0).slot = none
      ∧ ((withLink { freeLink with rx := .receiving [0xA0] 50000 }).unit .link0).rx = .receiving [0xA0] 50000
      ∧ (after (.gapTimerExpiry .link0) (withLink { freeLink with rx := .receiving [0xA0] 50000 })).links.u0.rx = .hunting := by
  decide +kernel

theorem witness_transmission_ends :
    sendingLink.tx ≠ none ∧ sendingLink.busy = false ∧ freeLink.tx = none
      ∧ (after (.transmissionEnd 0 .link0 none)
          (withLink { sendingLink with slot := some someReply, inbound := [identFrame] })).links.u0.tx = some (.reply someReply)
      ∧ (after (.transmissionEnd 0 .link0 none) (withLink { sendingLink with queue := notices 1 })).links.u0.queue = [] := by
  decide +kernel

theorem witness_queries :
    (1023#16).toNat = 1023 ∧ (1022#16).toNat < 1023
      ∧ (after (.segQuery 0 .link0 1023) idle).links.u0.tx = some (.reply { mtype := 0x06, code := .range, values := [] }) := by
  decide +kernel

/-- A definition of segment 5 for DRAWING with an intensity beyond its range. -/
def defineFive : SegDefineArgs :=
  { seg := 5, cls := 0, tag := 1, switches := 3, intensity := 4, highlight := 0, priority := 7 }

theorem witness_changes :
    changeOf idle.dir.projected (.segShare 1023) = none ∧ changeOf idle.dir.projected (.segShare 1022) = some (.share 1022, false)
      ∧ (changeOf idle.dir.projected (.segDefine defineFive)).map (fun p => p.2) = some true
      ∧ (ChangeOp.share 1022).refusal .link0 idle.dir.projected = some .denied
      ∧ (List.replicate 48 ({ issuer := .link0, op := .share 1 } : Change)).length = 48
      ∧ (after (.segDefine 0 .link1 defineFive) idle).dir.entries.map (fun p => p.1) = [5]
      ∧ (after (.segDefine 0 .link1 defineFive) (inFrameAt 50)).dir.changes.length = 1 := by
  decide +kernel

theorem witness_ownership :
    Dir.wf [(5, drawn 1 true)] = true ∧ (ChangeOp.share 5).seg ≠ some 6 ∧ Dir.find [(5, drawn 1 true)] 5 = some (drawn 1 true)
      ∧ Dir.sweep .link0 [(5, drawn 1 true)] = [] ∧ Dir.sweep .link1 [(5, drawn 1 true)] = [(5, drawn 1 true)] := by
  decide

/-- An insertion that every check passes. -/
def insertion : FilterInsertArgs :=
  { index := 255, enabled := 1, classMatch := 1, segLow := 0, segHigh := 1022, tagValue := 0, tagMask := 0, action := 1, arg := 8,
    final := 0 }

theorem witness_filter_edits :
    filterActionOf insertion.action insertion.arg = some (.priority 7) ∧ filterActionOf 3 0 = none
      ∧ (after (.filterInsert 0 .link0 insertion) idle).filt.entries.length = 1
      ∧ (after (.filterDelete 0 .link0 0) (after (.filterInsert 0 .link0 insertion) idle)).filt
        = { entries := [], editCount := 2 } := by
  decide +kernel

theorem witness_filter_walk :
    let e : FilterEntry :=
      { author := .link0, enabled := true, matchDrawing := true, matchMenu := false, segLow := 0, segHigh := 1022, tagValue := 0,
        tagMask := 0, action := .reject, final := false }
    e.matchesCandidate { seg := 1022, cls := .drawing, tag := 9, owner := .both } = true
      ∧ e.matchesCandidate { seg := 5, cls := .drawing, tag := 9, owner := .single .link1 } = false := by
  decide

theorem witness_pages :
    15 ≤ (15#8).toNat ∧ (14#8).toNat = (14 : Fin 15).val
      ∧ (after (.pagePush 0 .link0 14) idle).menu.current = [14] ∧ (after (.pagePush 0 .link0 14) (inFrameAt 50)).menu.current = [] := by
  decide +kernel

theorem witness_settings :
    (after (.portParams 0 .link0 { h := 8, lw := 8, ta := 100 }) idle).port.lw = 7
      ∧ echoStyleOf 0 = none ∧ echoStyleOf 3 = some .dash ∧ idle.pen.waiting = [] ∧ idle.pen.tipTimer = none
      ∧ (after (.penParams 0 .link0 { wmin := 3, dd := 30, f := 64, tb := 1 })
          { idle with pen := { idle.pen with tipRaw := .down, tipTimer := some 10000 } }).pen.tipDebounced = .down := by
  decide +kernel

theorem witness_cross_commands :
    (after (.crossPlace 0 .link0 4096 4095) idle).cross.x = 4095 ∧ (after (.crossPark 0 .link0) idle).cross = idle.cross := by
  decide +kernel

theorem witness_mode_cancel_resume :
    pickModeOf 2 = none ∧ pickModeOf 1 = some .point ∧ idle.res.attempt = .idle ∧ (attempting .closing [5]).res.attempt = .closing
      ∧ (after (.pickCancel 0 .link1) (attempting .gathering [])).res.attempt = .held
      ∧ (after (.penResume 0 .link1) { idle with pen := { idle.pen with muted := true, floods := 6 } }).pen.floods = 0 := by
  decide +kernel

theorem witness_masks_and_flags :
    (0x80#8).getLsbD 7 = true ∧ (0x7F#8).getLsbD 7 = false ∧ (2048#16).toNat = 2048 ∧ (2047#16).toNat < 2048 ∧ idle.flags ≠ 0
      ∧ (after (.noticeMask 0 .link0 0x08) (withLink { freeLink with mask := 0 })).links.u0.queue.length = 1
      ∧ (after (.flagsClear 0 .link0 0x07FF) idle).flags = 0b00000000100#11 := by
  decide +kernel

theorem witness_resets :
    (2#8).toNat = 2 ∧ (1#8).toNat = linkNumber .link1
      ∧ (after (.linkReset 0 .link0 1) (inFrameAt 50)).dir.sweeps = .single .link1
      ∧ after (.partReset 0 .link1) (inFrameAt 50)
        = { State.reset with
            links := { rate := .r9600, u0 := LinkUnit.afterReset (.partReset .link1), u1 := LinkUnit.afterReset (.partReset .link1) } }
      ∧ after (.powerOn .r9600 .up false false) (inFrameAt 50) = State.reset := by
  decide +kernel

theorem witness_cross_moves :
    moveAxis 64 1000 2128 2 = 1064 ∧ moveAxis 64 1000 2130 2 = 1064 ∧ moveAxis 0 1000 2130 2 = 1065 ∧ moveAxis 64 0 0 0 = 0 := by
  decide

theorem witness_dwell_items :
    (inFrameAt 9).dwellItem = none ∧ (dwelling.dwellItem.map (fun e => e.seg)) = some 950 ∧ dwelling.menu.dw ≤ dwelling.menu.dwellCount + 1
      ∧ dwelling.menu.latched ≠ some 950 := by
  decide +kernel

theorem witness_beam_and_window :
    (40000 : Nat) < 40070 ∧ ¬((40069 : Int) < 40000) ∧ spanDistance 40070 40000 40070 = 1 ∧ spanDistance 40069 40000 40070 = 0
      ∧ spanDistance 39999 40000 40070 = 1 := by
  decide

/-! ## Witnesses of the wider clauses -/

/-- The part in a frame with a MENU item bound to page 0, one bound to page 2, and a shown DRAWING segment. -/
def answering : State :=
  let s := inFrameAt 50
  { s with
    dir :=
      { s.dir with
        entries := [(5, drawn 1 true), (950, item (.page 0) .back), (951, item (.page 2) .back)], shown := [5], shownStyle := .blink }
    cross := { s.cross with state := .lost } }

theorem witness_segment_answers :
    [1023, 4, 5, 950, 951].map answering.answerFor = [0x8300, 0x0000, 0x8302, 0x8300, 0x0300]
      ∧ idle.answerFor 1023 = 0x0300 ∧ { answering with dir := { answering.dir with shown := [] } }.answerFor 5 = 0x8300 := by
  decide +kernel

/-- A second loss while the gap start of a first still waits (log 31): a SEGMENT-OPEN carries the second one. -/
theorem witness_two_gap_starts :
    let s := fifoOf 0 none true
    let first : FifoEntry := { record := .segmentOpen 7, stamp := 20, lost := false, gapStart := some 10 }
    ((after (.segmentOpen 0 9) { s with port := { s.port with fifo := [first], pendingGap := some 40 } }).port.fifo.map
        (fun e => (e.gapStart, e.lost))) = [(some 10, false), (some 40, false)] := by
  decide +kernel

/-- A frame end with a view change and a definition staged, an attempt gathering votes for the segment defined. -/
def viewing (views : List View) : State :=
  let s := threeFrames 24
  { s with
    res := { s.res with n := 9 }
    dir :=
      { s.dir with
        entries := [(132, drawn 532 true)]
        changes :=
          { issuer := .link0, op := .define 131 { cls := .drawing, tag := 1, visible := true, detectable := true, intensity := 3
                                                  highlight := .none, priority := 2, granularity := .segment, share := false } }
            :: views.map (fun v => { issuer := .link1, op := .view v }) }
    menu := { s.menu with leading := some 131, dwellCount := 3, latched := some 131 } }

/-- The view of the worked example of 10.6. -/
def turnedView : View := { orientation := .deg90, ox := 1234500, oy := 45000, sc := 1000 }

theorem witness_frame_starts_with_a_view :
    let t := after (.frameOpen 0 7 defaultEndOrder .menuBetween) (viewing [turnedView])
    let u := after (.frameOpen 0 7 defaultEndOrder .menuFirst) (viewing [])
    (t.coord.view, t.stats.lost, t.res.tally, t.res.attempt, t.res.withdrawn) = (turnedView, 1, [], .held, true)
      ∧ (u.stats.lost, u.res.tally.map (fun e => e.key.seg), u.res.attempt, u.res.withdrawn, u.res.frames)
        = (0, [132], .gathering, true, 3)
      ∧ (u.menu.leading, u.menu.dwellCount, u.menu.latched, u.dir.withdrawn) = (none, 0, none, [131])
      ∧ flagSet u.flags .portProtocol = true := by
  decide +kernel

theorem witness_frame_end_with_a_gap :
    let s := { fifoOf 0 (some 7) true with pen := (pulsed 1 0 1 none).pen }
    let t := after (.frameClose 0 defaultEndOrder) { s with port := { s.port with pendingGap := some 44 } }
    t.hist.ring = [gapRecord 44 (some 50)] ∧ (t.port.pendingGap, t.port.resync, t.port.openSeg) = (none, false, none)
      ∧ (t.stats.discarded, t.pen.pulse, t.pen.waiting, t.corr.newestStart) = (1, none, [], some 44) := by
  decide +kernel

theorem witness_dark_entry :
    let t := after (.absenceTimerExpiry defaultEndOrder { resolver := 0, menu := 0 }) (viewing [turnedView])
    (t.coord.view, t.stats.lost, t.dir.entries.map (fun p => p.1), t.res.attempt) = (turnedView, 1, [131, 132], .held) := by
  decide +kernel

theorem witness_history_entry_releases_a_hit :
    let s := { bilge with corr := { bilge.corr with newestStart := none } }
    let e : FifoEntry := { record := .vector true (line 0 0 9 9), stamp := 300070, lost := false, gapStart := none }
    let t := after (.historyEntry 0) { s with port := { s.port with fifo := [e] } }
    e.reports = some 300070 ∧ (t.pen.waiting, t.corr.newestStart) = ([], some 300070)
      ∧ ({ e with record := .segmentClose } : FifoEntry).reports = none := by
  decide +kernel

/-- The history with a full ring. -/
def fullRing : History :=
  { State.reset.hist with isOpen := true, openSeg := some 5, ring := List.replicate 511 (strokeRecord 3 (some 4)) ++ [strokeRecord 4 none] }

theorem witness_full_ring :
    let t := fullRing.takeEntry { record := .vector true (line 0 0 1 1), stamp := 9, lost := false, gapStart := none }
    fullRing.ring.length = 512 ∧ fullRing.gapOpen = false ∧ t.ring.length = 512 ∧ t.wrapped = true
      ∧ (t.ring.drop 510).map (fun r => (r.start, r.stop)) = [(4, some 9), (9, none)] := by
  decide +kernel

theorem witness_gaps :
    let h : History := { State.reset.hist with ring := [strokeRecord 3 none] }
    let e : FifoEntry := { record := .segmentOpen 8, stamp := 9, lost := false, gapStart := some 6 }
    (h.takeEntry e).ring = [strokeRecord 3 (some 6), gapRecord 6 (some 9)] ∧ (h.takeEntry e).openSeg = some 8
      ∧ (h.frameEnd 9 (some 7)).ring = [strokeRecord 3 (some 7), gapRecord 7 (some 9)]
      ∧ (h.frameEnd 9 none).ring = [strokeRecord 3 (some 9)] := by
  decide +kernel

theorem witness_release_test :
    let s (newest : Option Nat) : State := { bilge with corr := { bilge.corr with newestStart := newest } }
    bilge.corr.l = 20 ∧ bilge.corr.w = 5 ∧ (s none).releaseTest = s none ∧ (s (some 300035)).releaseTest = s (some 300035)
      ∧ (s (some 300036)).releaseTest.pen.waiting = [] ∧ (s none).frameHits.pen.waiting = [] := by
  decide +kernel

theorem witness_tip_reaches_the_resolver :
    let s := inFrameAt 60
    let down : State := { s with pen := { s.pen with tipRaw := .down, tipTimer := some 0 } }
    let up : State := { attempting .gathering [] with pen := { s.pen with tipDebounced := .down, tipTimer := some 0 } }
    (after .tipDebounceExpiry down).res.attempt = .gathering ∧ (after .tipDebounceExpiry up).stats.missed = 1
      ∧ (after .tipDebounceExpiry { s with pen := { s.pen with tipTimer := some 0 } }).res = s.res := by
  decide +kernel

theorem witness_counts_of_an_attempt :
    let s := attempting .gathering []
    let closing (n : Nat) : State := { s with res := { s.res with attempt := .closing, closing := n } }
    (resolverCount { s with res := { s.res with fresh := true } }).res.frames = 0 ∧ (resolverCount s).res.frames = 1
      ∧ (resolverCount { s with res := { s.res with n := 1 } }).res.attempt = .held ∧ s.hitDone = s
      ∧ (closing 2).hitDone.res.closing = 1 ∧ (closing 1).hitDone.stats.missed = 1
      ∧ ({ attempting .idle [] with pen := { s.pen with muted := true } } : State).tipDown.res.attempt = .idle := by
  decide +kernel

theorem witness_candidate_record :
    (strokeRecord 3 (some 9)).asCandidate 11 3
      = some { seg := 5, element := { index := 0, saturated := false }, start := 3, stop := 9, stroke := line 0 0 10 0, distance := 3 }
      ∧ (strokeRecord 3 (some 9)).asCandidate 11 2 = none := by
  decide +kernel

/-- A stroke of a segment as read from the ring. -/
def readOf (seg element : Nat) : ReadStroke :=
  { readFor (line 0 0 9 0) 10 20 with seg := seg, element := { index := element, saturated := false } }

theorem witness_lookups_and_keys :
    let s := { answering with dir := { answering.dir with entries := [(5, drawn 1 true), (6, drawn 1 false), (7, { drawn 1 true with cls := .mark })] } }
    [1023, 4, 6, 7].map (fun k => s.lookUp (readOf k 0)) = [none, none, none, none]
      ∧ (firstOfKeys ([readOf 5 0, readOf 5 1].filterMap s.lookUp)).map (fun c => (c.key, c.read.element.index))
        = [({ seg := 5, element := none }, 0)]
      ∧ (firstOfKeys ([readOf 5 0].filterMap s.lookUp)).map (fun c => c.filtered 12 [filterOf .link0 true false 0 1022 0 0 .reject true])
        = [none]
      ∧ (firstOfKeys ([readOf 5 0].filterMap s.lookUp)).map (fun c => (c.filtered 12 []).map (fun d => (d.priority, d.point)))
        = [some (2, { x := 2, y := 0 })] := by
  decide +kernel

theorem witness_hits_by_attempt_state :
    let hit (a : AttemptState) (ring : List HistoryRecord) : State :=
      let s := { bilge with res := { bilge.res with attempt := a, closing := 2 } }
      { s with hist := { s.hist with ring := ring } }.correlateHit 300050
    let crossOnly := [stroked 1023 2 300020 (some 300034) (line 1496 620 1532 620)]
    let gapped := gapRecord 300025 (some 300026) :: bilge.hist.ring
    ((hit .held bilge.hist.ring).res.tally, (hit .idle bilge.hist.ring).res.tally) = ([], [])
      ∧ (hit .closing gapped).res.gap = true ∧ (hit .closing bilge.hist.ring).res.gap = false
      ∧ (hit .gathering bilge.hist.ring).res.tally.length = 2 ∧ (hit .closing bilge.hist.ring).res.closing = 1
      ∧ ((hit .gathering []).stats.unmatched, (hit .gathering crossOnly).stats.unmatched, (hit .gathering crossOnly).cross.hCount)
        = (1, 0, 1) := by
  decide +kernel

/-- A candidate of a class for a segment. -/
def candidateOf (cls : SegClass) (seg : Nat) : Candidate :=
  { key := { seg := seg, element := none }, cls := cls, tag := 0, priority := 2, route := .both, weight := 6, point := { x := 1, y := 2 }
    element := 3, saturated := true }

/-- A frame sum of a segment. -/
def sumOf (seg : Nat) : FrameSum :=
  { seg := seg, weight := 12, hits := 255, route := .both, tag := 0, point := { x := 0, y := 0 }, element := 0, saturated := false
    gap := false }

theorem witness_tally_and_sums :
    let full : Resolver := { State.reset.res with tally := (List.range 8).map (fun k => ballot .drawing k 2 65535) }
    let sums := (List.range 8).map sumOf
    ((full.addCandidate 1 (candidateOf .drawing 0)).tally.map (fun e => (e.score, e.hits, e.framesSeen))).head? = some (65535, 2, 1)
      ∧ (full.addCandidate 1 (candidateOf .drawing 8)) = { full with overflow := true }
      ∧ (State.reset.res.addCandidate 1 (candidateOf .drawing 8)).tally.length = 1
      ∧ addCandidateToSums true sums (candidateOf .drawing 0) = sums ∧ addCandidateToSums true sums (candidateOf .menu 8) = sums
      ∧ ((addCandidateToSums true sums (candidateOf .menu 7)).map (fun e => (e.weight, e.hits, e.gap))).getLast? = some (18, 255, true)
      ∧ (addCandidateToSums false [] (candidateOf .menu 8)).map (fun e => (e.seg, e.hits, e.gap)) = [(8, 1, false)] := by
  decide +kernel

theorem witness_arm_points :
    let c := crossWith 1 2 0 0 0 0
    let q : ScreenPoint := { x := 30, y := 40 }
    (c.armPoint (line 0 5 9 5) q).hSum = 30 ∧ (c.armPoint (line 5 0 5 9) q).vSum = 40 ∧ c.armPoint (line 0 0 9 9) q = c
      ∧ c.armPoint (line 5 5 5 5) q = c ∧ ({ c with state := .parked } : Cross).armPoint (line 0 5 9 5) q = { c with state := .parked } := by
  decide +kernel

theorem witness_cross_changes :
    let s (c : Cross) : State := { idle with cross := c }
    (crossUpdate (s { crossWith 1150 621 0 0 0 0 with miss := 7 })).cross.state = .lost
      ∧ crossUpdate (s (crossWith 9 9 0 0 0 0)) = s { crossWith 9 9 0 0 0 0 with miss := 1 } := by
  decide +kernel

theorem witness_outcomes :
    let s := attempting .gathering []
    let e := ballot .drawing 3 2 24
    let bound (a : MenuAction) (notify : Bool) : State :=
      { s with dir := { s.dir with entries := [(950, { item .all a with binding := some { page := .all, action := a, notify := notify } })] } }
    let x := s.res.bareNotice .menu .absent
    (∀ n : Link, LinkSet.both.has n = true ↔ ∃ f ∈ [e, e], f.route.has n = true)
      ∧ ((s.outcome (.ambiguous [e, e])).stats.ambiguous, (s.outcome (.element e)).dir.echoes) = (1, [{ seg := 3, count := 10 }])
      ∧ ((bound .back false).menuOutcome 950 .both x).links.u0.tx = none
      ∧ ((bound .back true).menuOutcome 950 .both x).links.u0.tx = some (.notice { notice := .pick x, lossBefore := false })
      ∧ ((bound .notify false).menuOutcome 950 .both x).links.u0.tx ≠ none ∧ (s.menuOutcome 950 .both x).links.u0.tx ≠ none
      ∧ ((bound (.mode .point) false).runMenuAction 950).res.modeOwner = .single .link1
      ∧ ((bound (.page 2) false).runMenuAction 950).menu.next = [2] := by
  refine ⟨by intro n; cases n <;> decide, ?_⟩
  decide +kernel

theorem witness_after_an_outcome :
    let s := attempting .closing []
    let seen : State := { s with res := { s.res with releaseSeen := true } }
    (s.loseAttempt .cancelled).res.attempt = .held ∧ (seen.loseAttempt .cancelled).res.attempt = .gathering
      ∧ (State.afterOutcome { s with pen := { s.pen with tipDebounced := .up } }).res.attempt = .idle
      ∧ ((attempting .held []).loseAttempt .cancelled) = attempting .held [] := by
  decide +kernel

theorem witness_changes_stored :
    let d : Dir := [(5, drawn 1 true), (6, { drawn 1 true with owner := .both })]
    let v : SetValues := { tag := none, visible := some false, detectable := none, intensity := none, highlight := none
                           priority := some 7, granularity := none }
    Dir.wf d = true
      ∧ (Dir.find ((ChangeOp.set 5 v).apply .link0 d) 5).map (fun e => (e.visible, e.priority, e.tag)) = some (false, 7, 1)
      ∧ ((ChangeOp.release 5).apply .link0 d).map (fun p => p.1) = [6]
      ∧ (Dir.find ((ChangeOp.release 6).apply .link0 d) 6).map (fun e => e.owner) = some (.single .link1)
      ∧ (Dir.find ((ChangeOp.share 5).apply .link0 d) 5).map (fun e => e.owner) = some .both := by
  decide +kernel

theorem witness_changes_applied :
    let echo : Echo := { seg := 131, count := 3 }
    let s := { viewing [] with dir := { (viewing []).dir with entries := [(131, drawn 1 true)], echoes := [echo] } }
    let release : Change := { issuer := .link0, op := .release 131 }
    let denied : Change := { issuer := .link1, op := .release 131 }
    ((s.applyChange release).dir.echoes, (s.applyChange release).dir.withdrawn, (s.applyChange release).dir.entries) = ([], [131], [])
      ∧ release.op.refusal .link0 s.dir.entries = none ∧ denied.op.refusal .link1 s.dir.entries = some .denied
      ∧ (s.applySweep .link0).dir.withdrawn = [131] ∧ (s.applySweep .link1).dir.echoes = [echo]
      ∧ flagSet (s.applyListed denied).flags .changeSkipped = true := by
  decide +kernel

theorem witness_page_stacks :
    let s := inFrameAt 50
    let full : State := { s with menu := { s.menu with next := [1, 2, 3, 4, 5, 6, 7, 8] } }
    (full.stackOp (.push 9)).menu.next = [9, 1, 2, 3, 4, 5, 6, 7] ∧ full.menu.next.length = 8
      ∧ full.copyStack.menu.current = full.menu.next ∧ s.copyStack = s
      ∧ (idle.stackOp (.push 9)).menu.current = [9] := by
  decide +kernel

theorem witness_full_echo_list :
    let list : List Echo := [1, 2, 3, 4].map (fun k => { seg := k, count := k + 1 })
    (list.filter (fun e => e.seg ≠ 5)).length = 4
      ∧ (addEcho 10 5 list).map (fun e => (e.seg, e.count)) = [(2, 3), (3, 4), (4, 5), (5, 10)]
      ∧ (addEcho 10 1 list).map (fun e => (e.seg, e.count)) = [(2, 3), (3, 4), (4, 5), (1, 10)] ∧ addEcho 0 5 list = list := by
  decide +kernel

/-- Two hits of one hit time (log 32): the frame time counter at its limit, and Dd = 0. -/
theorem witness_hits_at_the_limit :
    let s := { inFrameAt 10000000 with port := { (inFrameAt 10000000).port with absence := 0 } }
    let edge (t : State) : State := after (.pulseEnd 0) (after .pulseQualify (after (.pulseLeadingEdge 1 true) t))
    (edge (edge { s with pen := { s.pen with dd := 0 } })).pen.waiting = [10000000, 10000000] := by
  decide +kernel

theorem witness_cancel_after_a_release :
    let s := attempting .closing [5]
    let t := after (.pickCancel 0 .link1) { s with res := { s.res with releaseSeen := true, number := 7 } }
    (t.res.attempt, t.res.number, t.stats.lost, t.stats.attempts) = (.gathering, 8, 1, 1)
      ∧ t.links.u0.tx = some (.notice { notice := .pick (({ s.res with number := 7 } : Resolver).bareNotice .lost .cancelled), lossBefore := false })
      ∧ s.pen.muted = false ∧ s.port.mode ≠ .dark := by
  decide +kernel

theorem witness_link_reset_of_the_mode_owner :
    let s := { inFrameAt 50 with res := { (inFrameAt 50).res with mode := .point, modeOwner := .single .link0 } }
    let full : State := { s with links := { s.links with u0 := { sendingLink with queue := notices 32, lossMark := true, mask := 0 } } }
    let x : QueuedNotice := { notice := .mode .element .both, lossBefore := false }
    let t := after (.linkReset 0 .link0 0) full
    let v := after (.linkReset 0 .link1 0) full
    (t.links.u0.queue, t.links.u0.lossMark, t.links.u0.slot.isSome, t.links.u1.tx) = ([x], false, true, some (.notice x))
      ∧ (v.links.u0.queue, v.links.u1.queue, v.links.u1.tx.isSome, v.res.mode) = ([x], [x], true, .element)
      ∧ (after (.linkReset 0 .link0 1) full).links.u0.queue = notices 32 := by
  decide +kernel

theorem witness_flag_at_a_full_queue :
    let t := (withLink { sendingLink with queue := notices 32 }).setFlag .flood
    flagSet t.flags .flood = true ∧ flagSet t.flags (.queueLoss .link0) = true ∧ flagSet t.flags .dark = true
      ∧ flagSet t.flags .intakeDrop = false := by
  decide +kernel

theorem witness_link_command_row :
    exec (linkInstr 0 .link0 .ident) idle = exec (.linkFrameComplete 0 .link0 false 0x20 []) idle := rfl

/-- The frame of the notice of section 6.8 (12.3), and of a notice of each other kind (R193). -/
theorem test_sent_frames :
    Sending.bytes (.notice { notice := .pick bilgeNotice, lossBefore := true })
        = frameBytes
            { dir := true, mtype := 0x38
              payload :=
                [1, 7, 3, 0, 0x80, 0, 0x80, 0x83, 0, 8, 2, 0x13, 0, 0x24, 3, 3, 5, 0xE4, 2, 0x83, 0xFF, 0xFF, 0xFD, 0xE4, 0xFF,
                  0xFF, 0xFA, 0x83] }
      ∧ ([.mode .point .both, .cross .lost 4095 256 9, .condition (ConditionFlag.queueLoss .link1).bit,
          .settings .dwellSet [12], .skipped .denied 0x07 none 3, .page 14 8 200, .restarted (.partReset .link1)]
            : List Notice).map (fun x => ({ notice := x, lossBefore := true } : QueuedNotice).payload)
          = [[0x87], [0x82, 0x0F, 0xFF, 0x01, 0x00, 9], [0x80, 0x04, 0x00], [0x86, 12], [0x82, 7, 0xFF, 0xFF, 3], [0x8E, 8, 200],
              [0x86]]
      ∧ (Sending.bytes (.reply { mtype := 0x21, code := .range, values := [] })).take 5 = [0xC3, 0x70, 2, 0x21, 3]
      ∧ frameAnswer true 7 4095 256 = [0x8007, 0x0FFF, 0x0100] := by
  decide +kernel

theorem test_counter_stays_at_its_limit :
    (Stats.count { Stats.zero with hits := 65535, lost := 65534 } .hits).values = [0, 0, 0, 65535, 0, 0, 0, 0, 0, 0, 0, 0, 65534]
      ∧ (Stats.count { Stats.zero with hits := 65535, lost := 65534 } .lost).lost = 65535 := by
  decide +kernel

/-- A word by itself: a whole record of kind 1, 2, 3 or 5, and the words of a VECTOR that arrives in a frame and outside one. -/
theorem witness_words_of_records :
    (wordKind 0x90FF, wordKind 0xA3FF, wordKind 0xB000, wordKind 0xD000) = (1, 2, 3, 5)
      ∧ (after (.strayWord 3 0x90FF) between).port.lastSeq = 0xFF
      ∧ (after (.strayWord 0 0xA3FF) (inFrameAt 50)).port.openSeg = some 1023
      ∧ (after (.strayWord 0 0xD000) (inFrameAt 50)).port.mode = .between
      ∧ (let part (words : List (BitVec 12)) (s : State) : State :=
          { s with port := { s.port with assembler := some { stamp := 44, beam := true, words := words } } }
        (after (.strayWord 5 0x7FFF) (part [1, 2] (inFrameAt 50))).port.assembler
            = some { stamp := 44, beam := true, words := [1, 2, 0xFFF] }
          ∧ ((after (.strayWord 5 4) (part [1, 2, 3] (inFrameAt 50))).port.fifo.map (fun e => (e.record, e.stamp)))
            = [(.vector true (line 1 2 3 4), 44)]
          ∧ (after (.strayWord 5 4) (part [1, 2, 3] (fifoOf 16 none false))).port.pendingGap = some 44
          ∧ (after (.strayWord 5 4) (part [1, 2, 3] between)).port.assembler = none) := by
  decide +kernel

/-- A record that discards unread answers and finds a full FIFO (log 33): PORT_PROTOCOL is told first. -/
theorem witness_two_flags_of_one_record :
    let s := { fifoOf 16 (some 7) false with flags := 0 }
    let t := after (.segmentOpen 0 9) { s with port := { s.port with answers := [1] } }
    (t.links.u0.tx, t.links.u0.queue)
      = (some (.notice { notice := .condition 2, lossBefore := false }), [{ notice := .condition 3, lossBefore := false }]) := by
  decide +kernel

/-- The emptying of a FIFO whose first entry is folded into a GAP and whose second releases a hit. -/
theorem witness_emptying_of_the_fifo :
    let entry (stamp : Nat) (lost : Bool) (g : Option Nat) : FifoEntry :=
      { record := .vector true (line 0 0 9 9), stamp := stamp, lost := lost, gapStart := g }
    let s := { bilge with port := { bilge.port with hold := true, fifo := [entry 300061 true (some 300061), entry 300070 false none] } }
    (s.flushFifo.port.fifo, s.flushFifo.port.hold, s.flushFifo.corr.newestStart) = ([], false, some 300070)
      ∧ (s.flushFifo.hist.ring.drop 7).map (fun r => (r.kind, r.start, r.stop))
          = [(.gap, 300061, some 300070), (.vector, 300070, none)]
      ∧ s.flushFifo.pen.waiting = [] ∧ (entry 300061 true (some 300061)).reports = some 300061 := by
  decide +kernel

theorem witness_wrong_lengths :
    decodeFrame { dir := false, mtype := 0x01, payload := List.replicate 8 0 } = .badLength 0x01
      ∧ decodeFrame { dir := false, mtype := 0x22, payload := [0] } = .badLength 0x22
      ∧ decodeFrame { dir := false, mtype := 0x00, payload := [] } = .unknown 0x00
      ∧ decodeFrame { dir := true, mtype := 0x01, payload := [] } = .unknown 0x01 := by
  decide +kernel

/-- A change while DARK that frees an echoed segment under the pen; PICK_PARAMS that releases a hit; PEN_PARAMS that ends a debounce. -/
theorem witness_works_carried_out :
    (let s : State :=
        { idle with
          dir := { idle.dir with entries := [(5, drawn 1 true)], echoes := [{ seg := 5, count := 3 }], withdrawn := [9] }
          menu := { idle.menu with latched := some 5 } }
      let t := after (.segRelease 0 .link0 5) s
      s.port.mode = .dark ∧ (t.dir.entries, t.dir.echoes, t.dir.withdrawn, t.menu.latched) = ([], [], [5], none))
      ∧ (let s : State :=
          { bilge with
            corr := { bilge.corr with newestStart := some 300035 }
            links := { bilge.links with u1 := { freeLink with mask := 0x10 } } }
        let t := after (.pickParams 0 .link0 { l := 30, w := 5, n := 3, t := 24, d := 12 }) s
        s.releaseTest = s ∧ t.pen.waiting = []
          ∧ t.links.u1.tx
            = some (.notice { notice := .settings .pickParams [0, 30, 5, 3, 0, 24, 0, 12], lossBefore := false }))
      ∧ (let s : State := { inFrameAt 60 with pen := { idle.pen with tipRaw := .down, tipTimer := some 10000 } }
        let u : State := { s with links := { s.links with u1 := { freeLink with mask := 0x10 } } }
        let t := after (.penParams 0 .link0 { wmin := 3, dd := 30, f := 64, tb := 1 }) u
        (t.pen.tipDebounced, t.res.attempt) = (.down, .gathering)
          ∧ t.links.u1.tx = some (.notice { notice := .settings .penParams [3, 0, 30, 64, 1], lossBefore := false })) := by
  decide +kernel

/-- A tick in which nothing is due, in each port state; and a tick at which every timed event is due. -/
theorem witness_one_tick :
    let p (s : State) : PortMode × Nat × Nat := (s.port.mode, s.port.frameTime, s.port.absence)
    let due : State :=
      { pulsed 3 0 0 none with
        links :=
          { idle.links with u0 := { freeLink with rx := .receiving [] 50000 }, u1 := { freeLink with rx := .receiving [] 50000 } } }
    let s : State := { due with pen := { due.pen with tipTimer := some 310000 }, port := { due.port with absence := 2000000 } }
    p ((inFrameAt 50).advance 1) = (.inFrame, 51, 51) ∧ p (between.advance 1) = (.between, 91, 91)
      ∧ p (idle.advance 1) = (.dark, 0, 0)
      ∧ p (({ inFrameAt 10000000 with port := { (inFrameAt 10000000).port with absence := 7 } } : State).advance 1)
          = (.inFrame, 10000000, 8)
      ∧ p (s.advance 1) = (.dark, 70, 0) ∧ (s.advance 1).links.u1.rx = .hunting ∧ (s.advance 1).stats.hits = 1 := by
  decide +kernel

end Sys2Proof.Tests
end

section
/-! PROOFS. The edits of the pick filter list (R128, R129, R130; O48): what a command leaves whose work is blind to its link's unit, what
each edit's work answers in each of its cases, and the statement. -/

namespace Sys2Proof.Machine

/-! ## A command whose work is blind to its link's unit -/

/-- A work that neither reads the unit of link n nor writes it. -/
def UnitBlind (n : Link) (work : State → State × Reply) : Prop :=
  ∀ s x, work (s.setUnit n x) = ((work s).1.setUnit n x, (work s).2)

/-- Clearing the mark after the work restores a ready link's unit, whose mark was clear before (R174). -/
theorem State.Ready.clearBusy_unit {u : State} {n : Link} (h : u.Ready n) :
    ({ u.unit n with rx := .hunting, busy := false } : LinkUnit) = { u.unit n with rx := .hunting } := by
  rw [← h.notBusy]

/-- A unit-blind work leaves the unit of its link as it was. -/
theorem UnitBlind.unit_eq {n : Link} {work : State → State × Reply} (hb : UnitBlind n work) (s : State) :
    (work s).1.unit n = s.unit n := by
  have hs : work s = ((work s).1.setUnit n (s.unit n), (work s).2) := by
    rw [← hb, setUnit_unit]
  rw [hs, unit_setUnit_same]

/-- A ready link's command with a unit-blind work shows at the link its reply alone: the mark that it was being carried out is gone, and
the rest is the work done on the state as time left it (R173, R174). -/
theorem linkCommand_of_unitBlind {u t : State} {n : Link} {c : LinkCmd} {work : State → State × Reply} {r : Reply}
    (h : u.Ready n) (hb : UnitBlind n work) (hc : ∀ s, commandWork n c s = ((work s).1, some (work s).2))
    (hw : work u = (t, r)) : u.linkCommand n c = t.replied n r := by
  have hwork : ∀ x, work (u.setUnit n x) = (t.setUnit n x, r) := fun x => by rw [hb, hw]
  have hunit : t.unit n = u.unit n := by
    have hkept := hb.unit_eq u
    rwa [hw] at hkept
  have hbusy : (u.setReceiver n .hunting).setBusy n true = u.setUnit n { u.unit n with rx := .hunting, busy := true } := by
    simp [State.setReceiver, State.setBusy]
  have hcommand : commandWork n c ((u.setReceiver n .hunting).setBusy n true)
      = ((work ((u.setReceiver n .hunting).setBusy n true)).1, some r) := by
    rw [hc, hbusy, hwork]
  calc u.linkCommand n c = u.carriedOut n (fun s => (work s).1) r := linkCommand_carriedOut h hcommand
    _ = ((t.setUnit n { u.unit n with rx := .hunting, busy := true }).setBusy n false).placeReply n r := by
      rw [State.carriedOut, hbusy, hwork]
    _ = t.replied n r := by
      simp [State.replied, State.setReceiver, State.setBusy, hunit, h.clearBusy_unit]

/-! ## An accepted edit -/

@[simp] theorem editFilters_setUnit (s : State) (n : Link) (x : LinkUnit) (entries : List FilterEntry) :
    (s.setUnit n x).editFilters entries = (s.editFilters entries).setUnit n x := by
  cases n <;> rfl

/-! ## FILTER_INSERT (R128) -/

/-- Check 1 of R128. -/
def insertMalformed (a : FilterInsertArgs) : Prop :=
  filterActionOf a.action a.arg = none ∨ (a.classMatch.getLsbD 0 = false ∧ a.classMatch.getLsbD 1 = false) ∨
    1022 < a.segLow.toNat ∨ 1022 < a.segHigh.toNat ∨ a.segHigh.toNat < a.segLow.toNat

/-- The entry that a FILTER_INSERT of link n places (R123). -/
def insertedEntry (n : Link) (a : FilterInsertArgs) (action : FilterAction) : FilterEntry :=
  { author := n, enabled := a.enabled.getLsbD 0, matchDrawing := a.classMatch.getLsbD 0, matchMenu := a.classMatch.getLsbD 1
    segLow := a.segLow.toNat, segHigh := a.segHigh.toNat, tagValue := a.tagValue, tagMask := a.tagMask
    action := action, final := a.final.getLsbD 0 }

theorem filterInsertWork_unitBlind (n m : Link) (a : FilterInsertArgs) : UnitBlind m (filterInsertWork n a) := by
  intro s x
  simp only [filterInsertWork, setUnit_filt, editFilters_setUnit]
  cases filterActionOf a.action a.arg with
  | none => rfl
  | some action =>
    dsimp only
    split
    · rfl
    · split
      · rfl
      · rfl

theorem filterInsertWork_of_malformed {a : FilterInsertArgs} (h : insertMalformed a) (n : Link) (s : State) :
    filterInsertWork n a s = (s, { mtype := 0x09, code := .range, values := [] }) := by
  unfold filterInsertWork
  cases hf : filterActionOf a.action a.arg with
  | none => rfl
  | some action =>
    obtain hnone | hrest := h
    · exact absurd (hf.symm.trans hnone) (Option.some_ne_none _)
    · exact if_pos (by simpa [or_assoc] using hrest)

/-- Past check 1 the room in the list decides. -/
theorem filterInsertWork_of_wellFormed {a : FilterInsertArgs} {action : FilterAction}
    (hf : filterActionOf a.action a.arg = some action)
    (hc : a.classMatch.getLsbD 0 = true ∨ a.classMatch.getLsbD 1 = true) (hlo : a.segLow.toNat ≤ a.segHigh.toNat)
    (hhi : a.segHigh.toNat ≤ 1022) (n : Link) (s : State) :
    filterInsertWork n a s =
      if 32 ≤ s.filt.entries.length then (s, { mtype := 0x09, code := .full, values := [] })
      else
        let i := min a.index.toNat s.filt.entries.length
        (s.editFilters (s.filt.entries.take i ++ insertedEntry n a action :: s.filt.entries.drop i),
          { mtype := 0x09
            code := if a.action = 1 ∧ 7 < a.arg.toNat then .clamped else .ok
            values := [byteOf i, s.filt.editCount + 1] }) := by
  have hpass : ¬((!a.classMatch.getLsbD 0 && !a.classMatch.getLsbD 1) || decide (1022 < a.segLow.toNat)
      || decide (1022 < a.segHigh.toNat) || decide (a.segHigh.toNat < a.segLow.toNat)) = true := by
    have hlo' : a.segLow.toNat ≤ 1022 := Nat.le_trans hlo hhi
    simpa [hlo, hhi, hlo', Decidable.or_iff_not_imp_left] using hc
  have hcode : doneCode (a.action == 1 && decide (7 < a.arg.toNat))
      = if a.action = 1 ∧ 7 < a.arg.toNat then .clamped else .ok := by
    simp [doneCode]
  unfold filterInsertWork
  rw [hf]
  simp only [if_neg hpass, hcode]
  rfl

/-! ## FILTER_DELETE and FILTER_ENABLE (R129, R130) -/

/-- The form that FILTER_DELETE and FILTER_ENABLE share: an edit of the entry at an index, for its author alone. -/
def authoredEdit (m : BitVec 6) (n : Link) (index : Byte) (edit : FilterEntry → List FilterEntry → List FilterEntry) (s : State) :
    State × Reply :=
  match s.filt.entries[index.toNat]? with
  | none => (s, { mtype := m, code := .state, values := [] })
  | some e =>
    if e.author ≠ n then (s, { mtype := m, code := .denied, values := [] })
    else (s.editFilters (edit e s.filt.entries), { mtype := m, code := .ok, values := [s.filt.editCount + 1] })

/-- The edit of FILTER_DELETE: the entry leaves (R129). -/
def deleteAt (index : Byte) (_ : FilterEntry) (l : List FilterEntry) : List FilterEntry := l.eraseIdx index.toNat

/-- The edit of FILTER_ENABLE: the entry's enabled field takes the value carried (R130). -/
def enableAt (index enabled : Byte) (e : FilterEntry) (l : List FilterEntry) : List FilterEntry :=
  l.set index.toNat { e with enabled := enabled.getLsbD 0 }

theorem filterDeleteWork_eq_authoredEdit (n : Link) (index : Byte) (s : State) :
    filterDeleteWork n index s = authoredEdit 0x0A n index (deleteAt index) s := rfl

theorem filterEnableWork_eq_authoredEdit (n : Link) (index enabled : Byte) (s : State) :
    filterEnableWork n index enabled s = authoredEdit 0x0B n index (enableAt index enabled) s := rfl

section AuthoredEdit

variable (m : BitVec 6) (n : Link) (index : Byte) (edit : FilterEntry → List FilterEntry → List FilterEntry)

theorem authoredEdit_unitBlind (k : Link) : UnitBlind k (authoredEdit m n index edit) := by
  intro s x
  simp only [authoredEdit, setUnit_filt, editFilters_setUnit]
  cases s.filt.entries[index.toNat]? with
  | none => rfl
  | some e =>
    dsimp only
    split
    · rfl
    · rfl

variable {s : State} {e : FilterEntry}

theorem authoredEdit_of_absent (h : s.filt.entries.length ≤ index.toNat) :
    authoredEdit m n index edit s = (s, { mtype := m, code := .state, values := [] }) := by
  simp only [authoredEdit, List.getElem?_eq_none h]

theorem authoredEdit_of_other (he : s.filt.entries[index.toNat]? = some e) (ha : e.author ≠ n) :
    authoredEdit m n index edit s = (s, { mtype := m, code := .denied, values := [] }) := by
  simp only [authoredEdit, he, if_pos ha]

theorem authoredEdit_of_author (he : s.filt.entries[index.toNat]? = some e) (ha : e.author = n) :
    authoredEdit m n index edit s =
      (s.editFilters (edit e s.filt.entries), { mtype := m, code := .ok, values := [s.filt.editCount + 1] }) := by
  simp only [authoredEdit, he, if_neg (not_not_intro ha)]

end AuthoredEdit

/-! ## The commands -/

section Commands

variable {dt : Nat} {n : Link} {s t : State} {r : Reply}

theorem exec_filterInsert_of_work {a : FilterInsertArgs} (h : (s.advance dt).Ready n)
    (hw : filterInsertWork n a (s.advance dt) = (t, r)) : exec (.filterInsert dt n a) s = .next (t.replied n r) :=
  congrArg Host.Outcome.next
    (linkCommand_of_unitBlind (c := .filterInsert a) h (filterInsertWork_unitBlind n n a) (fun _ => rfl) hw)

theorem exec_filterDelete_of_edit {index : Byte} (h : (s.advance dt).Ready n)
    (hw : authoredEdit 0x0A n index (deleteAt index) (s.advance dt) = (t, r)) :
    exec (.filterDelete dt n index) s = .next (t.replied n r) :=
  congrArg Host.Outcome.next
    (linkCommand_of_unitBlind (c := .filterDelete index) h (authoredEdit_unitBlind 0x0A n index (deleteAt index) n)
      (fun v => by rw [← filterDeleteWork_eq_authoredEdit]; rfl) hw)

theorem exec_filterEnable_of_edit {index enabled : Byte} (h : (s.advance dt).Ready n)
    (hw : authoredEdit 0x0B n index (enableAt index enabled) (s.advance dt) = (t, r)) :
    exec (.filterEnable dt n index enabled) s = .next (t.replied n r) :=
  congrArg Host.Outcome.next
    (linkCommand_of_unitBlind (c := .filterEnable index enabled) h
      (authoredEdit_unitBlind 0x0B n index (enableAt index enabled) n)
      (fun v => by rw [← filterEnableWork_eq_authoredEdit]; rfl) hw)

end Commands

/-- Settles O48: each command is its work and a reply, since the works are blind to the link's unit; the cases are those of the works. -/
theorem filterEdits : Obligations.FilterEdits := by
  unfold Obligations.FilterEdits
  rintro dt n s u rfl hready
  refine ⟨fun a i => ⟨fun hbad => ?range, fun action hf hc hlo hhi => ⟨fun hfull => ?full, ?placed⟩⟩,
    fun index enabled => ⟨fun habsent => ?absent, fun e he => ⟨fun hother => ?other, fun hown => ?own⟩⟩⟩
  case range => exact exec_filterInsert_of_work hready (filterInsertWork_of_malformed hbad n _)
  case full =>
    exact exec_filterInsert_of_work hready ((filterInsertWork_of_wellFormed hf hc hlo hhi n _).trans (if_pos hfull))
  case placed =>
    rintro hroom rfl
    exact exec_filterInsert_of_work hready
      ((filterInsertWork_of_wellFormed hf hc hlo hhi n _).trans (if_neg (Nat.not_le_of_lt hroom)))
  case absent =>
    exact ⟨exec_filterDelete_of_edit hready (authoredEdit_of_absent _ n index _ habsent),
      exec_filterEnable_of_edit hready (authoredEdit_of_absent _ n index _ habsent)⟩
  case other =>
    exact ⟨exec_filterDelete_of_edit hready (authoredEdit_of_other _ n index _ he hother),
      exec_filterEnable_of_edit hready (authoredEdit_of_other _ n index _ he hother)⟩
  case own =>
    exact ⟨exec_filterDelete_of_edit hready (authoredEdit_of_author _ n index _ he hown),
      exec_filterEnable_of_edit hready (authoredEdit_of_author _ n index _ he hown)⟩

end Sys2Proof.Machine
end

section
/-! PROOFS. The commands that report and change nothing (R156, R182, R183; O44): what a ready link's command leaves whose work only
reads, that each report reads nothing of the link's unit, and the statement. -/

namespace Sys2Proof.Machine

/-! ## A command whose work only reads -/

/-- A ready link's command that answers with a report, one that reads nothing of the link's unit, leaves that report's reply alone: neither
the hunting receiver nor the mark of a command being carried out shows in it, so it tells the state as time left it (R173, R174). -/
theorem linkCommand_of_report {u : State} {n : Link} {c : LinkCmd} {report : State → Reply} (h : u.Ready n)
    (hreport : ∀ s x, report (s.setUnit n x) = report s) (hc : ∀ s, commandWork n c s = (s, some (report s))) :
    u.linkCommand n c = u.replied n (report u) :=
  have hblind : UnitBlind n (fun s => (s, report s)) := fun s x => congrArg (Prod.mk (s.setUnit n x)) (hreport s x)
  linkCommand_of_unitBlind h hblind hc rfl

/-! ## The reports -/

section Reports

variable (s : State) (n : Link) (x : LinkUnit)

theorem crossReadWork_reply_setUnit : (crossReadWork (s.setUnit n x)).2 = (crossReadWork s).2 := by
  simp only [crossReadWork, setUnit_cross]

theorem statusReadWork_reply_setUnit : (statusReadWork (s.setUnit n x)).2 = (statusReadWork s).2 := by
  simp only [statusReadWork, setUnit_port, setUnit_res, setUnit_cross, setUnit_pen, setUnit_flags, setUnit_dir]

/-- IDENT reads the line rate, which both links share and no unit holds (R183). -/
theorem identWork_reply_setUnit : (identWork (s.setUnit n x)).2 = (identWork s).2 := by
  simp only [identWork, setUnit_rate]

end Reports

/-! ## The commands -/

section Commands

variable {dt : Nat} {n : Link} {s : State}

theorem exec_crossRead_of_ready (h : (s.advance dt).Ready n) :
    exec (.crossRead dt n) s = .next ((s.advance dt).replied n (crossReadWork (s.advance dt)).2) :=
  congrArg Host.Outcome.next
    (linkCommand_of_report (c := .crossRead) h (crossReadWork_reply_setUnit · n) (fun _ => rfl))

theorem exec_statusRead_of_ready (h : (s.advance dt).Ready n) :
    exec (.statusRead dt n) s = .next ((s.advance dt).replied n (statusReadWork (s.advance dt)).2) :=
  congrArg Host.Outcome.next
    (linkCommand_of_report (c := .statusRead) h (statusReadWork_reply_setUnit · n) (fun _ => rfl))

theorem exec_ident_of_ready (h : (s.advance dt).Ready n) :
    exec (.ident dt n) s = .next ((s.advance dt).replied n (identWork (s.advance dt)).2) :=
  congrArg Host.Outcome.next
    (linkCommand_of_report (c := .ident) h (identWork_reply_setUnit · n) (fun _ => rfl))

end Commands

/-- Settles O44: the codes case by case, and each command as the reply of its report, which is read from the state as time left it. -/
theorem readCommandsReport : Obligations.ReadCommandsReport := by
  unfold Obligations.ReadCommandsReport
  refine ⟨fun mode resync a m c l r => ⟨?port, ?attempt, ?pick, ?cross, ?tip, ?rate⟩, ?commands⟩
  case port => cases mode <;> rfl
  case attempt => cases a <;> rfl
  case pick => cases m <;> rfl
  case cross => cases c <;> rfl
  case tip => cases l <;> rfl
  case rate => cases r <;> rfl
  case commands =>
    rintro dt n s u rfl hready
    exact ⟨exec_crossRead_of_ready hready, exec_statusRead_of_ready hready, exec_ident_of_ready hready⟩

end Sys2Proof.Machine
end

section
/-! PROOFS. The conversion of a screen point (R161 to R165; O60): the rounding half away from zero, the stages, what a conversion
answers, and the statement. -/

namespace Sys2Proof.Machine

/-! ## Rounding (0.5)

The rounding half away from zero is an odd function that agrees with the rounding half upward on the naturals, so its two facts, that
it is the nearest integer and that a tie goes away from zero, are shown of naturals and carried over by the sign. -/

theorem roundHalfAway_natCast (n d : Nat) : roundHalfAway n d = roundHalfUp n d := by
  unfold roundHalfAway roundHalfUp
  rw [if_neg (Int.not_lt.mpr (Int.natCast_nonneg n)), Int.natAbs_natCast]

theorem roundHalfAway_neg (num : Int) (d : Nat) : roundHalfAway (-num) d = -roundHalfAway num d := by
  have half_of_zero : d / (2 * d) = 0 := by
    rcases Nat.eq_zero_or_pos d with rfl | hd
    · rfl
    · exact Nat.div_eq_of_lt (by omega)
  unfold roundHalfAway
  rw [Int.natAbs_neg]
  rcases Int.lt_trichotomy num 0 with hneg | rfl | hpos
  · rw [if_neg (by omega), if_pos hneg, Int.neg_neg]
  · rw [Int.neg_zero, if_neg (Int.lt_irrefl 0), Int.natAbs_zero, Nat.mul_zero, Nat.zero_add, half_of_zero]
    rfl
  · rw [if_pos (by omega), if_neg (by omega)]

theorem roundHalfUp_bounds (n : Nat) {d : Nat} (hd : 0 < d) :
    2 * (d * roundHalfUp n d) ≤ 2 * n + d ∧ 2 * n < 2 * (d * roundHalfUp n d) + d := by
  have hdiv : 2 * (d * roundHalfUp n d) + (2 * n + d) % (2 * d) = 2 * n + d := by
    rw [← Nat.mul_assoc]
    exact Nat.div_add_mod (2 * n + d) (2 * d)
  have hmod : (2 * n + d) % (2 * d) < 2 * d := Nat.mod_lt _ (by omega)
  omega

/-- `r` is `num / den` rounded as R163 and R164 say: no integer is nearer to the exact quotient, and from half way between two integers
it is the one farther from 0. -/
def IsRoundedQuotient (num : Int) (den : Nat) (r : Int) : Prop :=
  2 * (num - den * r).natAbs ≤ den ∧ (2 * (num - den * r).natAbs = den → num.natAbs ≤ den * r.natAbs)

theorem IsRoundedQuotient.neg {num r : Int} {den : Nat} (h : IsRoundedQuotient num den r) :
    IsRoundedQuotient (-num) den (-r) := by
  have hdist : (-num - den * -r).natAbs = (num - den * r).natAbs := by
    rw [Int.mul_neg, Int.sub_neg, ← Int.natAbs_neg (num - den * r), Int.neg_sub, Int.add_comm, Int.sub_eq_add_neg]
  unfold IsRoundedQuotient
  rw [hdist, Int.natAbs_neg, Int.natAbs_neg]
  exact h

theorem isRoundedQuotient_roundHalfUp (n : Nat) {d : Nat} (hd : 0 < d) : IsRoundedQuotient n d (roundHalfUp n d) := by
  obtain ⟨hlow, hhigh⟩ := roundHalfUp_bounds n hd
  unfold IsRoundedQuotient
  rw [← Int.natCast_mul, Int.natAbs_natCast, Int.natAbs_natCast]
  constructor
  · omega
  · intro htie
    omega

theorem isRoundedQuotient_roundHalfAway (num : Int) {d : Nat} (hd : 0 < d) :
    IsRoundedQuotient num d (roundHalfAway num d) := by
  have of_natCast (n : Nat) : IsRoundedQuotient n d (roundHalfAway n d) := by
    rw [roundHalfAway_natCast]
    exact isRoundedQuotient_roundHalfUp n hd
  obtain ⟨n, rfl | rfl⟩ := num.eq_nat_or_neg
  · exact of_natCast n
  · rw [roundHalfAway_neg]
    exact (of_natCast n).neg

/-! ## The stages (R164, R165) -/

theorem snap_zero (origin : Long) (v : Int) : snap 0 origin v = v := if_pos rfl

theorem snap_of_ne_zero {pitch : Word} (h : pitch ≠ 0) (origin : Long) (v : Int) :
    snap pitch origin v = origin.toInt + pitch.toNat * roundHalfAway (v - origin.toInt) pitch.toNat := if_neg h

theorem saturate_eq_max_min (v : Int) : saturate v = max (-2147483647) (min v 2147483647) := by
  unfold saturate Config.loftLimit
  split
  · omega
  · split <;> omega

/-! ## The conversion (R161) -/

section Conversion

variable (c : Coord) (p : ScreenPoint)

/-- The wide loft x that the snap stage hands to saturation. -/
def Coord.wideX : Int := snap c.px c.gx (window c.view.ox c.view.sc (turn c.view.orientation p).1)

/-- The wide loft y that the snap stage hands to saturation. -/
def Coord.wideY : Int := snap c.py c.gy (window c.view.oy c.view.sc (turn c.view.orientation p).2)

theorem convert_x : (c.convert p).x = saturate (c.wideX p) := rfl

theorem convert_y : (c.convert p).y = saturate (c.wideY p) := rfl

theorem convert_saturated_iff :
    (c.convert p).saturated = true ↔ (c.convert p).x ≠ c.wideX p ∨ (c.convert p).y ≠ c.wideY p := by
  change (saturate (c.wideX p) != c.wideX p || saturate (c.wideY p) != c.wideY p) = true ↔ _
  rw [Bool.or_eq_true, bne_iff_ne, bne_iff_ne, convert_x, convert_y]

theorem convert_snapped_iff : (c.convert p).snapped = true ↔ c.px ≠ 0 ∨ c.py ≠ 0 := by
  change (c.px != 0 || c.py != 0) = true ↔ _
  rw [Bool.or_eq_true, bne_iff_ne, bne_iff_ne]

end Conversion

/-- Settles O60: the turning by its table, the rounding by the sign of its numerator, and the conversion stage by stage. -/
theorem screenPointIsConverted : Obligations.ScreenPointIsConverted := by
  unfold Obligations.ScreenPointIsConverted
  refine ⟨fun sx sy => ⟨rfl, rfl, rfl, rfl⟩, fun num den hden => isRoundedQuotient_roundHalfAway num hden, ?conversion⟩
  rintro c p u lx ly rfl rfl rfl
  have hx := (convert_x c p).trans (saturate_eq_max_min _)
  have hy := (convert_y c p).trans (saturate_eq_max_min _)
  exact ⟨hx, hy, convert_saturated_iff c p, convert_snapped_iff c p, snap_zero c.gx,
    fun _ origin v hpitch => snap_of_ne_zero hpitch origin v⟩

end Sys2Proof.Machine
end

section
/-! PROOFS. The layouts of the link frame (R187, R189, R190; O12): the CRC-8 one byte at a time, the receiver at the CHECK byte, the bytes
that carry the marks and codes of a notice, and the payload of each notice. -/

namespace Sys2Proof.Machine

/-! ## Check (R190) -/

theorem crcByte_eq_repeat (r b : Byte) : crcByte r b = Nat.repeat crcShift 8 (r ^^^ b) := rfl

theorem crc8_concat (bytes : List Byte) (b : Byte) : crc8 (bytes ++ [b]) = Nat.repeat crcShift 8 (crc8 bytes ^^^ b) := by
  unfold crc8
  rw [List.foldl_append, List.foldl_cons, List.foldl_nil, crcByte_eq_repeat]

theorem take_check {len : Byte} {payload : List Byte} (h : payload.length = len.toNat) (head b : Byte) (g : Nat) :
    Receiver.take (.receiving (head :: len :: payload) g) b =
      if b = crc8 (head :: len :: payload) then .completes (frameOf head payload) else .fails .check :=
  if_neg (Nat.not_lt.mpr (Nat.le_of_eq h.symm))

theorem take_fails_check_iff {len : Byte} {payload : List Byte} (h : payload.length = len.toNat) (head b : Byte) (g : Nat) :
    Receiver.take (.receiving (head :: len :: payload) g) b = .fails .check ↔ b ≠ crc8 (head :: len :: payload) := by
  rw [take_check h]
  split
  case isTrue hb => simp [hb]
  case isFalse hb => simp [hb]

theorem crc8_identHead : crc8 [0xA0#8] = 0xB2#8 := rfl

theorem crc8_identBody : crc8 [0xA0#8, 0x00#8] = 0x66#8 := by
  have h := crc8_concat [0xA0#8] 0x00#8
  rw [crc8_identHead] at h
  exact h

theorem frameBytes_ident : frameBytes (encodeCommand .ident) = [0xC3#8, 0xA0#8, 0x00#8, 0x66#8] :=
  congrArg ([0xC3#8, 0xA0#8, 0x00#8] ++ [·]) crc8_identBody

/-! ## Marks and codes in a byte -/

theorem ite_zero_eq_toNat_mul (b : Bool) (k : Nat) : (if b then k else 0) = b.toNat * k := by
  cases b <;> simp

theorem byteOf_toNat (b : Byte) : byteOf b.toNat = b := (BitVec.ofNat_toNat 8 b).trans (BitVec.setWidth_eq b)

/-- The sum of the marks' weights is the number of the byte that has the marks as its bits. -/
theorem pickFlagByte_eq_bits (f : PickFlags) (loss : Bool) :
    pickFlagByte f loss =
      BitVec.ofBool loss ++ BitVec.ofBool f.dwell ++ BitVec.ofBool f.snapped ++ BitVec.ofBool f.saturated
        ++ BitVec.ofBool f.elementSaturated ++ BitVec.ofBool f.withdrawn ++ BitVec.ofBool f.overflow ++ BitVec.ofBool f.gap := by
  refine (congrArg byteOf ?sum).trans (byteOf_toNat _)
  simp only [ite_zero_eq_toNat_mul, BitVec.append_ofBool, BitVec.toNat_concat, BitVec.toNat_ofBool]
  omega

theorem two_mul_linkSet_code (a : LinkSet) : 2 * a.code = (if a.l0 then 2 else 0) + (if a.l1 then 4 else 0) := by
  unfold LinkSet.code
  split <;> split <;> rfl

/-! ## The frames sent (12.3) -/

theorem bytes_notice {x : Notice} {loss : Bool} {mtype : BitVec 6} {payload : List Byte} (hm : x.mtype = mtype)
    (hp : QueuedNotice.payload { notice := x, lossBefore := loss } = payload) :
    Sending.bytes (.notice { notice := x, lossBefore := loss }) =
      frameBytes { dir := true, mtype := mtype, payload := payload } := by
  rw [← hm, ← hp]
  rfl

theorem bytes_reply {r : Reply} {code : Byte} (h : byteOf r.code.code = code) :
    Sending.bytes (.reply r) =
      frameBytes { dir := true, mtype := 0x30#6, payload := [r.mtype.zeroExtend 8, code] ++ r.values } := by
  rw [← h]
  rfl

theorem pickPayload_congr {p : PickNotice} {loss : Bool} {kind reason flags : Byte} {primary list : List Byte}
    (hkind : byteOf p.kind.code = kind) (hreason : byteOf p.reason.code = reason) (hflags : pickFlagByte p.flags loss = flags)
    (hprimary : p.primary.elim [] primaryBytes = primary)
    (hlist : (if p.kind = .ambiguous then byteOf p.list.length :: p.list.flatMap listedBytes else []) = list) :
    p.payload loss = [kind, p.attempt, byteOf p.frames, reason, flags] ++ primary ++ list := by
  subst hkind hreason hflags hprimary hlist
  unfold PickNotice.payload
  congr 1
  · cases p.primary <;> rfl
  · cases p.kind <;> rfl

theorem primaryBytes_congr {q : Primary} {source : Byte} {picked : List Byte} (hsource : byteOf q.source.code = source)
    (hpicked : pickedBytes q.picked = picked) :
    primaryBytes q =
      [source] ++ picked ++ wordBytes q.screen.x ++ wordBytes q.screen.y ++ signedBytes q.loftX ++ signedBytes q.loftY := by
  rw [← hsource, ← hpicked]
  rfl

theorem modePayload_congr {m : PickMode} {code : Nat} (h : m.code = code) (owner : LinkSet) (loss : Bool) :
    QueuedNotice.payload { notice := .mode m owner, lossBefore := loss } =
      [firstByte loss (code + (if owner.l0 then 2 else 0) + (if owner.l1 then 4 else 0))] := by
  rw [Nat.add_assoc, ← two_mul_linkSet_code, ← h]
  rfl

/-- Settles O12: the CRC by its recursion, the HEAD and the fields by their definitions, and each notice by its payload. -/
theorem checkIsTheCrc : Obligations.CheckIsTheCrc := by
  unfold Obligations.CheckIsTheCrc
  refine ⟨⟨fun _ => rfl, rfl, crc8_concat, fun _ => ⟨_, rfl, rfl⟩, fun head _ b _ g h => take_fails_check_iff h head b g,
    crc8_identHead, frameBytes_ident⟩, fun _ => ⟨rfl, rfl⟩, fun _ _ _ _ => ⟨rfl, rfl, rfl, rfl, rfl⟩, ?reply, ?notice, ?flagBit⟩
  case reply =>
    rintro r code rfl
    apply bytes_reply
    cases r.code <;> rfl
  case notice =>
    rintro x loss mtype payload lead marked rfl rfl rfl rfl
    apply bytes_notice
    case hm => cases x <;> rfl
    case hp =>
      cases x with
      | pick p =>
        apply pickPayload_congr
        case hkind => cases p.kind <;> rfl
        case hreason => cases p.reason <;> rfl
        case hflags => exact pickFlagByte_eq_bits p.flags loss
        case hprimary =>
          rcases p.primary with _ | q
          · rfl
          · apply primaryBytes_congr
            case hsource => cases q.source <;> rfl
            case hpicked => cases q.picked <;> rfl
        case hlist => rfl
      | mode m owner =>
        apply modePayload_congr
        cases m <;> rfl
      | cross st x y seq => cases st <;> rfl
      | condition flags => rfl
      | settings group values => cases group <;> rfl
      | skipped reason kind seg seq => cases seg <;> rfl
      | page p depth seq => rfl
      | restarted cause =>
        rcases cause with _ | _ | link
        · rfl
        · rfl
        · cases link <;> rfl
  case flagBit =>
    intro f
    cases f with
    | frameError link | queueLoss link => cases link <;> rfl
    | _ => rfl

end Sys2Proof.Machine
end

section
/-! PROOFS. The link frame and the stroke words read back (R170, R187 to R189, 12.1 to 12.3; O10, O11, O13, O14): a field's bytes, a
command's frame, a frame's bytes fed to a receiver, a command row as the completion of its frame, and the words of a VECTOR. -/

namespace Sys2Proof.Machine

/-! ## Fields (R187) -/

@[simp] theorem word16_bytes16 (w : Word) : word16 (w.extractLsb' 8 8) (w.extractLsb' 0 8) = w := by
  apply BitVec.eq_of_getLsbD_eq
  intro i hi
  simp only [word16, BitVec.getLsbD_append, BitVec.getLsbD_extractLsb']
  by_cases h : i < 8
  · simp [h]
  · simp [h, show i - 8 < 8 by omega, show 8 + (i - 8) = i by omega]

@[simp] theorem word32_bytes32 (w : Long) :
    word32 (w.extractLsb' 24 8) (w.extractLsb' 16 8) (w.extractLsb' 8 8) (w.extractLsb' 0 8) = w := by
  apply BitVec.eq_of_getLsbD_eq
  intro i hi
  simp only [word32, BitVec.getLsbD_append, BitVec.getLsbD_extractLsb']
  grind

/-! ## A command's frame (R189, 12.3) -/

/-- The reader of a command's message type reads the command's payload back. -/
theorem payloadReader_payload (c : LinkCmd) : (payloadReader c.mtype.toNat).bind (fun read => read c.payload) = some c := by
  cases c with
  | segDefine a | segSet a | segMenu a | viewSet a | filterInsert a | pickParams a | penParams a | portParams a | snapSet a =>
    simp [LinkCmd.mtype, LinkCmd.payload, payloadReader, FilterInsertArgs.tailBytes, bytes16, bytes32, parseSegDefine,
      parseSegSet, parseSegMenu, parseViewSet, parseFilterInsert, parsePickParams, parsePenParams, parsePortParams,
      parseSnapSet]
  | _ =>
    simp [LinkCmd.mtype, LinkCmd.payload, payloadReader, bytes16, parseTwoWords, parseWordByte, parseWord, parseTwoBytes,
      parseByte, parseEmpty]

theorem decodeFrame_encodeCommand (c : LinkCmd) : decodeFrame (encodeCommand c) = .command c := by
  obtain ⟨read, hr, hc⟩ := Option.bind_eq_some_iff.1 (payloadReader_payload c)
  simp [decodeFrame, encodeCommand, hr, hc]

/-- Settles O10, by the reading back of each command's payload. -/
theorem frameDecodesToItsCommand : Obligations.FrameDecodesToItsCommand := decodeFrame_encodeCommand

/-! ## The bytes of a frame (R170, 12.2) -/

/-- The payload and CHECK of a frame complete it, whatever part of the payload stands already. -/
theorem feed_payload (head len : Byte) (pre post : List Byte) (g : Nat) (h : (pre ++ post).length = len.toNat) :
    feed (.receiving (head :: len :: pre) g) (post ++ [crc8 (head :: len :: (pre ++ post))]) =
      .completes (frameOf head (pre ++ post)) := by
  induction post generalizing pre g with
  | nil =>
    rw [List.append_nil] at h ⊢
    simp [feed, Receiver.take, h]
  | cons b rest ih =>
    have hlt : pre.length < len.toNat := by rw [← h, List.length_append, List.length_cons]; omega
    have hrest := ih (pre ++ [b]) 0 (by simpa using h)
    simpa [feed, Receiver.take, hlt] using hrest

theorem headPasses_headByte (dir : Bool) (m : BitVec 6) : headPasses (headByte dir m) = true := by
  revert dir m; decide

theorem frameOf_headByte (f : Frame) : frameOf (headByte f.dir f.mtype) f.payload = f := by
  obtain ⟨dir, m, payload⟩ := f
  have hd : ∀ (d : Bool) (m : BitVec 6), (headByte d m).getLsbD 6 = d ∧ (headByte d m).extractLsb' 0 6 = m := by decide
  simp only [frameOf, hd]

/-- Settles O11: MARK, HEAD and LEN pass, and the payload and CHECK complete the frame. -/
theorem frameBytesCompleteTheFrame : Obligations.FrameBytesCompleteTheFrame := by
  unfold Obligations.FrameBytesCompleteTheFrame
  intro f hf
  have hlen : (byteOf f.payload.length).toNat = f.payload.length := by
    simp only [byteOf, BitVec.toNat_ofNat, Config.payloadLimit] at *
    omega
  have hbody := feed_payload (headByte f.dir f.mtype) (byteOf f.payload.length) [] f.payload 0 hlen.symm
  rw [List.nil_append, frameOf_headByte] at hbody
  simpa [feed, frameBytes, Receiver.take, headPasses_headByte, hlen, Nat.not_lt.2 hf] using hbody

/-! ## A command row (log 6) -/

theorem payload_length_le (c : LinkCmd) : c.payload.length ≤ Config.payloadLimit := by
  cases c <;> exact Nat.le_of_ble_eq_true rfl

/-- A frame that completes on a link whose slot and buffer are empty is taken at once (R172, R173). -/
theorem frameCompletes_of_free {s : State} {n : Link} {f : Frame} (hs : (s.unit n).slot = none)
    (hi : (s.unit n).inbound = []) : s.frameCompletes n f = (s.setReceiver n .hunting).takeFrame n f := by
  have hback : s.setUnit n { s.unit n with rx := .hunting, slot := none, inbound := [] } = s.setReceiver n .hunting := by
    rw [← hs, ← hi]; rfl
  simp only [State.setReceiver] at hback
  simp [State.frameCompletes, State.takeNext, State.setReceiver, hs, hi, Config.inboundSize, hback]

/-- A link command is the completion of its frame, on a free link and on any other (log 6). -/
theorem linkCommand_eq_frameCompletes (s : State) (n : Link) (c : LinkCmd) :
    s.linkCommand n c = s.frameCompletes n (encodeCommand c) := by
  unfold State.linkCommand
  split
  · rename_i hfree
    obtain ⟨hs, hi⟩ := Bool.and_eq_true_iff.1 hfree
    rw [frameCompletes_of_free (Option.isNone_iff_eq_none.1 hs) (List.isEmpty_iff.1 hi), State.takeFrame,
      decodeFrame_encodeCommand]
  · rfl

theorem exec_linkInstr (dt : Nat) (n : Link) (c : LinkCmd) (s : State) :
    exec (linkInstr dt n c) s = .next ((s.advance dt).linkCommand n c) := by
  cases c <;> rfl

/-- Settles O13: the row is the link command, the payload of a command fits a frame, and its completion is the command's. -/
theorem linkCommandIsItsFrame : Obligations.LinkCommandIsItsFrame := by
  unfold Obligations.LinkCommandIsItsFrame
  intro dt n c s
  rw [exec_linkInstr, linkCommand_eq_frameCompletes]
  exact congrArg Host.Outcome.next (if_pos (payload_length_le c)).symm

/-! ## The words of a VECTOR (R2, R188) -/

theorem abandonRecord_assembler (s : State) : s.abandonRecord.port.assembler = none := by
  unfold State.abandonRecord
  split
  · rw [(setFlag_posted _ _).port]
  · rename_i h
    simpa using h

/-- The state with the first words of a VECTOR written (R2). -/
def State.partVector (s : State) (stamp : Nat) (beam : Bool) (words : List (BitVec 12)) : State :=
  { s with port := { s.port with assembler := some { stamp := stamp, beam := beam, words := words } } }

theorem wordWritten_first (s : State) (beam : Bool) :
    s.wordWritten (0xC000#16 ||| (BitVec.ofBool beam).zeroExtend 16) =
      s.abandonRecord.partVector s.abandonRecord.port.frameTime beam [] := by
  cases beam <;> rfl

theorem wordMarked_zeroExtend (v : BitVec 12) : wordMarked (v.zeroExtend 16) = false := by
  simp [wordMarked]

theorem extract_zeroExtend (v : BitVec 12) : (v.zeroExtend 16).extractLsb' 0 12 = v := by
  apply BitVec.eq_of_getLsbD_eq
  intro i hi
  simp [hi]
  omega

/-- A continuation word before the last joins the words written (R2). -/
theorem wordWritten_continues (s : State) (stamp : Nat) (beam : Bool) {words : List (BitVec 12)} (h : words.length < 3)
    (v : BitVec 12) :
    (s.partVector stamp beam words).wordWritten (v.zeroExtend 16) = s.partVector stamp beam (words ++ [v]) := by
  rw [State.wordWritten, wordMarked_zeroExtend, if_neg Bool.false_ne_true]
  simp only [State.unmarkedWord, State.partVector, extract_zeroExtend]
  match words, h with
  | [], _ | [_], _ | [_, _], _ => rfl

/-- The fourth coordinate completes the record, and the VECTOR arrives (R2). -/
theorem wordWritten_completes (s : State) (stamp : Nat) (beam : Bool) (p : Stroke) (h : s.port.assembler = none) :
    (s.partVector stamp beam [p.x0, p.y0, p.x1]).wordWritten (p.y1.zeroExtend 16) = s.vectorArrives beam p stamp := by
  have hback : { s with port := { s.port with assembler := none } } = s := by rw [← h]
  rw [State.wordWritten, wordMarked_zeroExtend, if_neg Bool.false_ne_true]
  simp only [State.unmarkedWord, State.partVector, extract_zeroExtend, hback]

/-- Settles O14: the first word stamps and begins the record, three join it, and the last completes it. -/
theorem fiveWordsMakeAVector : Obligations.FiveWordsMakeAVector := by
  unfold Obligations.FiveWordsMakeAVector
  intro s beam p
  let t := s.abandonRecord
  let part := t.partVector t.port.frameTime beam
  refine ⟨part [], part [p.x0], part [p.x0, p.y0], part [p.x0, p.y0, p.x1], _, _, _, _, _, rfl, ?_, ?_, ?_, ?_, ?_⟩
  · exact congrArg Host.Outcome.next (wordWritten_first s beam)
  · exact congrArg Host.Outcome.next (wordWritten_continues t _ beam (by simp) p.x0)
  · exact congrArg Host.Outcome.next (wordWritten_continues t _ beam (by simp) p.y0)
  · exact congrArg Host.Outcome.next (wordWritten_continues t _ beam (by simp) p.x1)
  · exact congrArg Host.Outcome.next (wordWritten_completes t _ beam p (abandonRecord_assembler s))

end Sys2Proof.Machine
end

section
/-! PROOFS. What a step can do, said once: the events of the part, every command as a run of them (O1, O8), and the induction by which an
invariant of the events is one of the steps. -/

namespace Sys2Proof.Machine

/-! ## The events -/

/-- One event of the part: the passing of ticks in which nothing falls due, what the stroke port, the pen or a link does at one moment, or
a reset. -/
inductive Event : State → State → Prop
  | queue (s : State) (rest : List Instr) : Event s { s with pending := rest }
  | elapse (s : State) (d : Nat) : Event s (s.elapse d)
  | abandon (s : State) : Event s s.abandonRecord
  | begins (s : State) (v : Option PartialVector) : Event s { s with port := { s.port with assembler := v } }
  | protocol (s : State) : Event s (s.setFlag .portProtocol)
  | frameOpens (s : State) (seq : Byte) (e : FrameEndOrder) (o : FrameStartOrder) : Event s (s.frameOpens seq e o)
  | segmentOpens (s : State) (seg stamp : Nat) : Event s (s.segmentOpens seg stamp)
  | segmentCloses (s : State) (stamp : Nat) : Event s (s.segmentCloses stamp)
  | vectorArrives (s : State) (beam : Bool) (p : Stroke) (stamp : Nat) : Event s (s.vectorArrives beam p stamp)
  | frameCloses (s : State) (o : FrameEndOrder) : Event s (s.frameCloses o)
  | takeOldest (s : State) : Event s s.takeOldest
  | absenceExpires (s : State) (e : FrameEndOrder) (o : DarkOrder) : Event s (s.absenceExpires e o)
  | readAnswer (s : State) : Event s s.readAnswer
  | leadingEdge (s : State) (enable : Bool) : Event s (s.leadingEdge enable)
  | pulseReleased (s : State) : Event s s.pulseReleased
  | qualify (s : State) : Event s s.qualify
  | tipShows (s : State) (level : TipLevel) : Event s (s.tipShows level)
  | debounce (s : State) : Event s s.debounce
  | receives (s : State) (n : Link) (rx : Receiver) : Event s (s.setReceiver n rx)
  | fails (s : State) (n : Link) (reason : FailReason) : Event s (s.failFrame n reason)
  | completes (s : State) (n : Link) (f : Frame) : Event s (s.frameCompletes n f)
  | transmissionEnds (s : State) (n : Link) (failFirst : Option FailReason) : Event s (s.transmissionEnds n failFirst)
  | resets (s : State) (cause : RestartCause) (rate : LineRate) (tip : TipLevel) (line enable : Bool) :
    Event s (s.afterReset cause rate (penAfterReset tip line enable))

/-- A run of events. -/
inductive Events : State → State → Prop where
  | refl {s : State} : Events s s
  | tail {s t u : State} (hrun : Events s t) (hev : Event t u) : Events s u

theorem Events.single {s t : State} (h : Event s t) : Events s t := .tail .refl h

theorem Events.trans {s t u : State} (h : Events s t) (k : Events t u) : Events s u := by
  induction k with
  | refl => exact h
  | tail _ hev ih => exact .tail ih hev

theorem Events.head {s t u : State} (h : Event s t) (k : Events t u) : Events s u := (Events.single h).trans k

/-! ## Every command is a run of events -/

theorem fire_event (s : State) (e : TimedEvent) : Event s (s.fire e) := by
  cases e with
  | qualify => exact .qualify s
  | debounce => exact .debounce s
  | gap n => exact .fails s n .short
  | absence => exact .absenceExpires s _ _

theorem advanceBy_events (fuel d : Nat) (s : State) : Events s (State.advanceBy fuel d s) := by
  induction fuel generalizing d s with
  | zero => exact .single (.elapse s d)
  | succ k ih =>
    unfold State.advanceBy
    split
    · exact .single (.elapse s d)
    · rename_i e n _
      split
      · exact .head (.elapse s n) (.head (fire_event _ e) (ih _ _))
      · exact .single (.elapse s d)

theorem advance_events (s : State) (d : Nat) : Events s (s.advance d) := by
  unfold State.advance
  split
  · exact .refl
  · exact advanceBy_events 5 d s

theorem runTo_events (s : State) (e : TimedEvent) : Events s (s.runTo e).1 := by
  unfold State.runTo
  split
  · exact .refl
  · exact advance_events s _

theorem wordWritten_events (s : State) (w : Word) : Events s (s.wordWritten w) := by
  unfold State.wordWritten
  split
  · refine .head (.abandon s) ?_
    unfold State.markedWord
    dsimp only
    split
    · exact .single (.frameOpens _ _ _ _)
    · exact .single (.segmentOpens _ _ _)
    · exact .single (.segmentCloses _ _)
    · exact .single (.begins _ _)
    · exact .single (.frameCloses _ _)
    · exact .single (.protocol _)
  · unfold State.unmarkedWord
    split
    · exact .single (.protocol _)
    · dsimp only
      split
      · exact .head (.begins s none) (.single (.vectorArrives _ _ _ _))
      · exact .single (.begins _ _)

theorem characterTaken_events (s : State) (n : Link) (b : Byte) (stopOk : Bool) : Events s (s.characterTaken n b stopOk) := by
  unfold State.characterTaken
  split
  · exact .refl
  · split
    · exact .single (.receives s n _)
    · exact .single (.fails s n _)
    · exact .single (.completes s n _)

theorem linkCommand_event (s : State) (n : Link) (c : LinkCmd) : Event s (s.linkCommand n c) := by
  rw [linkCommand_eq_frameCompletes]
  exact .completes s n _

/-- Every command answers a next state, which a run of events leads to. -/
theorem exec_events (i : Instr) (s : State) : ∃ t, exec i s = .next t ∧ Events s t := by
  cases i with
  | frameOpen dt seq e o => exact ⟨_, rfl, (advance_events s dt).trans (.head (.abandon _) (.single (.frameOpens _ seq e o)))⟩
  | segmentOpen dt seg => exact ⟨_, rfl, (advance_events s dt).trans (.head (.abandon _) (.single (.segmentOpens _ _ _)))⟩
  | segmentClose dt => exact ⟨_, rfl, (advance_events s dt).trans (.head (.abandon _) (.single (.segmentCloses _ _)))⟩
  | vector dt span beam p =>
    exact ⟨_, rfl, (advance_events s dt).trans (.head (.abandon _)
      ((advance_events _ span).trans (.single (.vectorArrives _ beam p _))))⟩
  | frameClose dt e => exact ⟨_, rfl, (advance_events s dt).trans (.head (.abandon _) (.single (.frameCloses _ e)))⟩
  | historyEntry dt => exact ⟨_, rfl, (advance_events s _).tail (.takeOldest _)⟩
  | absenceTimerExpiry e o =>
    refine ⟨_, rfl, ?_⟩
    split
    · exact (runTo_events s _).tail (.absenceExpires _ e o)
    · exact runTo_events s _
  | frameTimeLimit => exact ⟨_, rfl, advance_events s _⟩
  | answerRead dt => exact ⟨_, rfl, (advance_events s dt).tail (.readAnswer _)⟩
  | strayWord dt w => exact ⟨_, rfl, (advance_events s dt).trans (wordWritten_events _ w)⟩
  | pulseLeadingEdge dt enable => exact ⟨_, rfl, (advance_events s dt).tail (.leadingEdge _ enable)⟩
  | pulseEnd dt => exact ⟨_, rfl, (advance_events s dt).tail (.pulseReleased _)⟩
  | pulseQualify =>
    refine ⟨_, rfl, ?_⟩
    split
    · exact (runTo_events s _).tail (.qualify _)
    · exact runTo_events s _
  | tipLevelChange dt level => exact ⟨_, rfl, (advance_events s dt).tail (.tipShows _ level)⟩
  | tipDebounceExpiry =>
    refine ⟨_, rfl, ?_⟩
    split
    · exact (runTo_events s _).tail (.debounce _)
    · exact runTo_events s _
  | linkFrameComplete dt n dir mtype payload =>
    refine ⟨_, rfl, ?_⟩
    split
    · exact (advance_events s dt).tail (.completes _ n _)
    · exact (advance_events s dt).tail (.fails _ n _)
  | frameFailed dt n reason => exact ⟨_, rfl, (advance_events s dt).tail (.fails _ n reason)⟩
  | gapTimerExpiry n => exact ⟨_, rfl, advance_events s _⟩
  | transmissionEnd dt n failFirst => exact ⟨_, rfl, (advance_events s dt).tail (.transmissionEnds _ n failFirst)⟩
  | unknownType dt n dir mtype => exact ⟨_, rfl, (advance_events s dt).tail (.completes _ n _)⟩
  | powerOn rate tip line enable => exact ⟨_, rfl, .single (.resets s .powerOn rate tip line enable)⟩
  | resetLine dt => exact ⟨_, rfl, (advance_events s dt).tail (.resets _ .resetLine _ _ _ _)⟩
  | characterTaken dt n byte stopOk => exact ⟨_, rfl, (advance_events s dt).trans (characterTaken_events _ n byte stopOk)⟩
  | _ => exact ⟨_, rfl, (advance_events s _).tail (linkCommand_event _ _ _)⟩

/-! ## Steps -/

theorem step_of_pending (s : State) (c : Instr) (rest : List Instr) :
    step { s with pending := c :: rest } = exec c { s with pending := rest } := rfl

theorem step_of_idle {s : State} (h : s.pending = []) : step s = .next (s.advance 1) := by
  unfold step
  rw [h]

/-- Every step answers a next state, which a run of events leads to. -/
theorem step_events (s : State) : ∃ t, step s = .next t ∧ Events s t := by
  cases h : s.pending with
  | nil => exact ⟨_, step_of_idle h, advance_events s 1⟩
  | cons c rest =>
    obtain ⟨t, ht, hrun⟩ := exec_events c { s with pending := rest }
    refine ⟨t, ?_, .head (.queue s rest) hrun⟩
    unfold step
    rw [h]
    exact ht

theorem events_keep {P : State → Prop} (h : ∀ s t, Event s t → P s → P t) {s t : State} (hs : P s) (hrun : Events s t) :
    P t := by
  induction hrun with
  | refl => exact hs
  | tail _ hev ih => exact h _ _ hev ih

/-- What every event keeps, every step keeps. -/
theorem step_keeps {P : State → Prop} (h : ∀ s t, Event s t → P s → P t) (s t : State) (hs : P s) (ht : step s = .next t) :
    P t := by
  obtain ⟨t', ht', hrun⟩ := step_events s
  cases ht.symm.trans ht'
  exact events_keep h hs hrun

/-- Settles O1. -/
theorem stepRunsCommandAtFront : Obligations.StepRunsCommandAtFront := fun c s rest => step_of_pending s c rest

/-- Settles O8: a step is a run of events, and an idle one a tick. -/
theorem everyStepGoesOn : Obligations.EveryStepGoesOn :=
  ⟨fun s => (step_events s).imp fun _ h => h.1, fun _ h => step_of_idle h⟩

end Sys2Proof.Machine
end

section
/-! PROOFS. The bounds of the stores (O3): what is kept by the work of commands and by the taking of frames, and the statement. -/

namespace Sys2Proof.Machine

/-! ## The taking of frames -/

/-- A property of the part that the units of the links bear on by the sizes of their stores alone, and that flags and the work of
commands keep. -/
structure KeptByWork (P : State → Prop) : Prop where
  unit : ∀ (s : State) (n : Link) (u : LinkUnit),
    ((s.unit n).inbound.length ≤ Config.inboundSize → u.inbound.length ≤ Config.inboundSize) →
      ((s.unit n).queue.length ≤ Config.noticeQueueSize → u.queue.length ≤ Config.noticeQueueSize) →
        P s → P (s.setUnit n u)
  flag : ∀ (s : State) (f : ConditionFlag), P s → P (s.setFlag f)
  work : ∀ (s : State) (n : Link) (c : LinkCmd), P s → P (commandWork n c s).1

section KeptByWork

variable {P : State → Prop} (hP : KeptByWork P) {s : State} (n : Link) (hs : P s)
include hP hs

theorem KeptByWork.setReceiver (rx : Receiver) : P (s.setReceiver n rx) := hP.unit s n _ id id hs

theorem KeptByWork.setBusy (b : Bool) : P (s.setBusy n b) := hP.unit s n _ id id hs

theorem KeptByWork.placeReply (r : Reply) : P (s.placeReply n r) := by
  refine hP.unit s n _ (fun h => ?_) (fun h => Nat.le_trans (LinkUnit.kick_queue_length _) h) hs
  rw [LinkUnit.kick_inbound]
  exact h

theorem KeptByWork.failFrame (reason : FailReason) : P (s.failFrame n reason) := by
  have hflag := hP.flag _ (.frameError n) (hP.setReceiver n hs .hunting)
  unfold State.failFrame
  dsimp only
  split
  · exact hP.placeReply n hflag _
  · exact hflag

theorem KeptByWork.carryOut (c : LinkCmd) : P (s.carryOut n c) := by
  have hwork := hP.work _ n c (hP.setBusy n hs true)
  unfold State.carryOut
  split
  · rename_i t r he
    rw [he] at hwork
    exact hP.placeReply n (hP.setBusy n hwork false) r
  · rename_i t he
    rw [he] at hwork
    exact hwork

theorem KeptByWork.takeFrame (f : Frame) : P (s.takeFrame n f) := by
  unfold State.takeFrame
  split
  · exact hP.placeReply n hs _
  · exact hP.placeReply n hs _
  · exact hP.carryOut n hs _

theorem KeptByWork.takeNext : P (s.takeNext n) := by
  unfold State.takeNext
  split
  · rename_i f rest _ hi
    refine hP.takeFrame n (hP.unit s n { s.unit n with inbound := rest } (fun h => ?_) id hs) f
    rw [hi] at h
    exact Nat.le_of_succ_le h
  · exact hs

theorem KeptByWork.frameCompletes (f : Frame) : P (s.frameCompletes n f) := by
  have hrx := hP.setReceiver n hs .hunting
  unfold State.frameCompletes
  dsimp only
  split
  · rename_i hroom
    refine hP.takeNext n (hP.unit _ n _ (fun _ => ?_) id hrx)
    rw [List.length_append]
    exact hroom
  · exact hP.flag _ _ hrx

theorem KeptByWork.transmissionEnds (failFirst : Option FailReason) : P (s.transmissionEnds n failFirst) := by
  unfold State.transmissionEnds
  split
  · exact hs
  · have hkick : P (s.setUnit n ({ s.unit n with tx := none } : LinkUnit).kick) :=
      hP.unit s n _ (fun h => by rw [LinkUnit.kick_inbound]; exact h) (fun h => Nat.le_trans (LinkUnit.kick_queue_length _) h) hs
    dsimp only
    split
    · exact hP.takeNext n (hP.failFrame n hkick _)
    · exact hP.takeNext n hkick

end KeptByWork

/-! ## The change commands -/

/-- What the work of a change command does: check 1 refuses it, or a change of a segment 0..1022 or of a scaled view is taken (R27). -/
def ChangeWork (n : Link) (s : State) (r : State × Reply) : Prop :=
  r.1 = s ∨ ∃ op clamped, op.named ∧ op.scaled ∧ r = s.takeChange n op clamped

section ChangeWork

variable {n : Link} {s : State}

theorem changeWork_of_seg {op : ChangeOp} {clamped : Bool} {seg : Word} (hop : op.scaled) (h : op.seg = some seg.toNat)
    (hb : ¬ badSeg seg = true) : ChangeWork n s (s.takeChange n op clamped) := by
  refine .inr ⟨op, clamped, fun k hk => ?_, hop, rfl⟩
  cases h.symm.trans hk
  simpa [badSeg] using hb

theorem segDefineWork_change (a : SegDefineArgs) : ChangeWork n s (segDefineWork n a s) := by
  unfold segDefineWork
  split
  · split
    · exact .inl rfl
    · exact changeWork_of_seg trivial rfl ‹_›
  · exact .inl rfl

theorem segSetWork_change (a : SegSetArgs) : ChangeWork n s (segSetWork n a s) := by
  unfold segSetWork
  dsimp only
  split
  · exact .inl rfl
  · rename_i h
    simp only [Bool.or_eq_true, not_or] at h
    exact changeWork_of_seg trivial rfl h.1.1

theorem segShareWork_change (seg : Word) : ChangeWork n s (segShareWork n seg s) := by
  unfold segShareWork
  split
  · exact .inl rfl
  · exact changeWork_of_seg trivial rfl ‹_›

theorem segReleaseWork_change (seg : Word) : ChangeWork n s (segReleaseWork n seg s) := by
  unfold segReleaseWork
  split
  · exact .inl rfl
  · exact changeWork_of_seg trivial rfl ‹_›

theorem segMenuWork_change (a : SegMenuArgs) : ChangeWork n s (segMenuWork n a s) := by
  unfold segMenuWork
  split
  · exact .inl rfl
  · split
    · exact .inl rfl
    · exact changeWork_of_seg trivial rfl ‹_›

theorem clampNat_bounds {lo hi : Nat} (h : lo ≤ hi) (v : Nat) : lo ≤ clampNat lo hi v ∧ clampNat lo hi v ≤ hi := by
  unfold clampNat
  split
  · exact ⟨Nat.le_refl _, h⟩
  · split
    · exact ⟨h, Nat.le_refl _⟩
    · omega

theorem viewSetWork_change (a : ViewSetArgs) : ChangeWork n s (viewSetWork n a s) := by
  unfold viewSetWork
  split
  · exact .inl rfl
  · refine .inr ⟨_, _, ?_, ?_, rfl⟩
    · exact fun _ h => nomatch h
    · exact clampNat_bounds (by decide) _

end ChangeWork

/-! ## The work of commands -/

section Bounded

variable {s : State}

theorem applyChange_bounded (c : Change) (b : s.Bounded) : (s.applyChange c).Bounded := (applyChange_directed s c).bounded b

theorem takeChange_bounded (n : Link) (op : ChangeOp) (clamped : Bool) (b : s.Bounded) :
    (s.takeChange n op clamped).1.Bounded := by
  unfold State.takeChange
  split
  · exact b
  · dsimp only
    split
    · exact handWithdrawn_bounded false (applyChange_bounded _ { b with })
    · split
      · exact b
      · rename_i hroom
        refine { b with changes := ?_ }
        simp only [List.length_append, List.length_cons, List.length_nil]
        omega

theorem editFilters_bounded {l : List FilterEntry} (h : l.length ≤ Config.filterListSize) (b : s.Bounded) :
    (s.editFilters l).Bounded := { b with filters := h }

theorem filterInsertWork_bounded (n : Link) (a : FilterInsertArgs) (b : s.Bounded) : (filterInsertWork n a s).1.Bounded := by
  unfold filterInsertWork
  dsimp only
  split
  · exact b
  · split
    · exact b
    · split
      · exact b
      · refine editFilters_bounded ?_ b
        simp only [List.length_append, List.length_take, List.length_cons, List.length_drop]
        omega

theorem authoredEdit_bounded (m : BitVec 6) (n : Link) (index : Byte) {edit : FilterEntry → List FilterEntry → List FilterEntry}
    (h : ∀ e l, (edit e l).length ≤ l.length) (b : s.Bounded) : (authoredEdit m n index edit s).1.Bounded := by
  unfold authoredEdit
  split
  · exact b
  · split
    · exact b
    · exact editFilters_bounded (Nat.le_trans (h _ _) b.filters) b

theorem recheckDebounce_bounded (b : s.Bounded) : s.recheckDebounce.Bounded := by
  unfold State.recheckDebounce
  split
  · split
    · exact debounce_bounded b
    · exact b
  · exact b

theorem penParamsWork_bounded (n : Link) (a : PenParamsArgs) (b : s.Bounded) : (penParamsWork n a s).1.Bounded := by
  refine (postSettings_posted _ _ _ _).bounded ?_
  split
  · exact { b with }
  · exact recheckDebounce_bounded { b with }

theorem noticeMaskWork_bounded (n : Link) (classes : Byte) (b : s.Bounded) : (noticeMaskWork n classes s).1.Bounded := by
  unfold noticeMaskWork
  split
  · exact b
  · have hmask := setUnit_bounded n { s.unit n with mask := classes.extractLsb' 0 7 } b (b.inbound n) (b.queue n)
    dsimp only
    split
    · exact (post_posted _ _ _).bounded hmask
    · exact hmask

theorem resetLink_bounded (n : Link) (b : s.Bounded) : (s.resetLink n).Bounded := by
  have hflushed : (s.setUnit n (s.unit n).flushed).Bounded := setUnit_bounded n _ b (b.inbound n) (Nat.zero_le _)
  have hdir : ((s.setUnit n (s.unit n).flushed).resetLinkDirectory n).Bounded := by
    generalize s.setUnit n (s.unit n).flushed = t at hflushed
    have hchanges := Nat.le_trans (List.length_filter_le (fun c : Change => c.issuer != n) t.dir.changes) hflushed.changes
    unfold State.resetLinkDirectory
    dsimp only
    split
    · exact handWithdrawn_bounded false ((applySweep_directed _ n).bounded { hflushed with changes := hchanges })
    · exact { hflushed with changes := hchanges }
  have hfilt : (((s.setUnit n (s.unit n).flushed).resetLinkDirectory n).dropFiltersOf n).Bounded := by
    unfold State.dropFiltersOf
    dsimp only
    split
    · exact hdir
    · exact editFilters_bounded (Nat.le_trans (List.length_filter_le _ _) hdir.filters) hdir
  unfold State.resetLink State.revertMode
  split
  · exact (setMode_resolved _ _ _).bounded hfilt
  · exact hfilt

theorem afterReset_bounded (s : State) (cause : RestartCause) (rate : LineRate) (tip : TipLevel) (line enable : Bool) :
    (s.afterReset cause rate (penAfterReset tip line enable)).Bounded where
  inbound := fun n => by cases n <;> exact Nat.zero_le _
  queue := fun n => by cases n <;> exact Nat.zero_le _
  frameTime := Nat.zero_le _
  fifo := Nat.zero_le _
  answers := Nat.zero_le _
  changes := Nat.zero_le _
  echoes := Nat.zero_le _
  ring := Nat.zero_le _
  waiting := Nat.zero_le _
  tally := Nat.zero_le _
  filters := Nat.zero_le _
  next := Nat.zero_le _
  current := Nat.zero_le _
  sums := Nat.zero_le _

theorem ChangeWork.bounded {n : Link} {r : State × Reply} (h : ChangeWork n s r) (b : s.Bounded) : r.1.Bounded := by
  obtain he | ⟨op, clamped, -, -, rfl⟩ := h
  · exact he ▸ b
  · exact takeChange_bounded n op clamped b

theorem statsReadWork_bounded (clear : Byte) (b : s.Bounded) : (statsReadWork clear s).1.Bounded := by
  unfold statsReadWork
  dsimp only
  split
  · exact { b with }
  · exact b

/-- The work of a command keeps every store within its places. -/
theorem commandWork_bounded (n : Link) (c : LinkCmd) (b : s.Bounded) : (commandWork n c s).1.Bounded := by
  cases c with
  | segDefine a => exact (segDefineWork_change a).bounded b
  | segSet a => exact (segSetWork_change a).bounded b
  | segShare seg => exact (segShareWork_change seg).bounded b
  | segRelease seg => exact (segReleaseWork_change seg).bounded b
  | segMenu a => exact (segMenuWork_change a).bounded b
  | viewSet a => exact (viewSetWork_change a).bounded b
  | segQuery seg => dsimp only [commandWork, segQueryWork]; split <;> exact b
  | echoSet e style =>
    dsimp only [commandWork, echoSetWork]
    split
    · exact b
    · exact (postSettings_posted _ _ _ _).bounded { b with }
  | filterInsert a => exact filterInsertWork_bounded n a b
  | filterDelete index => exact authoredEdit_bounded _ n index (fun _ l => List.length_eraseIdx_le l _) b
  | filterEnable index enabled => exact authoredEdit_bounded _ n index (fun _ _ => Nat.le_of_eq (List.length_set ..)) b
  | pagePush page =>
    dsimp only [commandWork, pagePushWork]
    split
    · exact b
    · exact (stackOp_resolved _ _).bounded b
  | pageBack | pageHome => exact (stackOp_resolved _ _).bounded b
  | dwellSet _ | crossParams _ _ | portParams _ | snapSet _ => exact (postSettings_posted _ _ _ _).bounded { b with }
  | crossPlace x y => exact setCross_bounded _ b
  | crossPark => exact setCross_bounded _ b
  | penParams a => exact penParamsWork_bounded n a b
  | penResume => exact { b with }
  | pickParams a => exact (postSettings_posted _ _ _ _).bounded ((releaseTest_correlated _).bounded { b with })
  | modeSet mode =>
    dsimp only [commandWork, modeSetWork]
    split
    · exact b
    · exact (setMode_resolved _ _ _).bounded b
  | pickCancel =>
    dsimp only [commandWork, pickCancelWork]
    split
    · exact (loseAttempt_resolved _ _).bounded b
    · exact (loseAttempt_resolved _ _).bounded b
    · exact b
    · exact b
  | noticeMask classes => exact noticeMaskWork_bounded n classes b
  | flagsClear flags =>
    dsimp only [commandWork, flagsClearWork]
    split
    · exact b
    · exact { b with }
  | statsRead clear => exact statsReadWork_bounded clear b
  | linkReset link =>
    dsimp only [commandWork, linkResetWork]
    split
    · exact b
    · exact resetLink_bounded _ b
  | partReset => exact afterReset_bounded s _ _ _ _ _
  | filterRead _ | crossRead | statusRead | ident => exact b

theorem bounded_keptByWork : KeptByWork State.Bounded where
  unit := fun _ n u hi hq b => setUnit_bounded n u b (hi (b.inbound n)) (hq (b.queue n))
  flag := fun _ _ b => (setFlag_posted _ _).bounded b
  work := fun _ n c b => commandWork_bounded n c b

theorem takeOldest_bounded (b : s.Bounded) : s.takeOldest.Bounded := by
  unfold State.takeOldest
  split
  · exact b
  · exact { handOldest_bounded b with }

theorem event_bounded (s t : State) (h : Event s t) (b : s.Bounded) : t.Bounded := by
  cases h with
  | queue rest => exact { b with }
  | elapse d => exact elapse_bounded d b
  | abandon => exact abandonRecord_bounded b
  | begins v => exact { b with }
  | protocol => exact (setFlag_posted _ _).bounded b
  | frameOpens seq e o => exact frameOpens_bounded seq e o b
  | segmentOpens seg stamp => exact segmentOpens_bounded seg stamp b
  | segmentCloses stamp => exact segmentCloses_bounded stamp b
  | vectorArrives beam p stamp => exact vectorArrives_bounded beam p stamp b
  | frameCloses o => exact frameCloses_bounded o b
  | takeOldest => exact takeOldest_bounded b
  | absenceExpires e o => exact absenceExpires_bounded e o b
  | readAnswer => exact readAnswer_bounded b
  | leadingEdge enable => exact leadingEdge_bounded enable b
  | pulseReleased => exact pulseReleased_bounded b
  | qualify => exact qualify_bounded b
  | tipShows level => exact tipShows_bounded level b
  | debounce => exact debounce_bounded b
  | receives n rx => exact setReceiver_bounded n rx b
  | fails n reason => exact failFrame_bounded n reason b
  | completes n f => exact bounded_keptByWork.frameCompletes n b f
  | transmissionEnds n failFirst => exact bounded_keptByWork.transmissionEnds n b failFirst
  | resets cause rate tip line enable => exact afterReset_bounded s cause rate tip line enable

end Bounded

/-- Settles O3: every event keeps the bounds. -/
theorem stepKeepsBounds : Obligations.StepKeepsBounds := step_keeps event_bounded

end Sys2Proof.Machine
end

section
/-! PROOFS. The form of the directory and the ranges of the parameters (O4, O5): what of the part stands but for the directory's work, the
cross and the settings commands, and the two statements. -/

namespace Sys2Proof.Machine

theorem clampNat_le {lo hi : Nat} (h : lo ≤ hi) (v : Nat) : clampNat lo hi v ≤ hi := (clampNat_bounds h v).2

/-! ## What stands -/

/-- What the form of the directory and the ranges of the parameters speak of. -/
def State.standing (s : State) : (Dir × List Change × Nat) × (View × Nat × Nat × Nat × Nat) × (Nat × Nat × Nat) ×
    (Nat × Nat × Nat × Nat) × (Nat × Nat) × (Nat × Nat × Nat) × Nat :=
  ((s.dir.entries, s.dir.changes, s.dir.echoLength),
    (s.coord.view, s.cross.x, s.cross.y, s.cross.slew, s.cross.k), (s.port.h, s.port.lw, s.port.ta),
    (s.pen.wmin, s.pen.dd, s.pen.f, s.pen.tb), (s.corr.l, s.corr.w), (s.res.n, s.res.t, s.res.d), s.menu.dw)

section Standing

variable {s t : State}

theorem Correlated.standing (h : Correlated s t) : t.standing = s.standing := by
  obtain ⟨hn, ht, hd⟩ := h.params
  have hmenu : t.menu.dw = s.menu.dw := by rw [h.menuSame]
  have hcross : (t.cross.x, t.cross.y, t.cross.slew, t.cross.k) = (s.cross.x, s.cross.y, s.cross.slew, s.cross.k) := by
    rw [h.crossSame]
  have hdir : (t.dir.entries, t.dir.changes, t.dir.echoLength) = (s.dir.entries, s.dir.changes, s.dir.echoLength) := by
    rw [h.dir]
  have hpen : (t.pen.wmin, t.pen.dd, t.pen.f, t.pen.tb) = (s.pen.wmin, s.pen.dd, s.pen.f, s.pen.tb) := by rw [h.pen]
  rw [State.standing, State.standing, hdir, hcross, hpen, hmenu, hn, ht, hd, h.port, h.corr, h.coord]

theorem Resolved.standing (h : Resolved s t) : t.standing = s.standing := h.correlated.standing

theorem Posted.standing (h : Posted s t) : t.standing = s.standing := h.resolved.standing

theorem setFlag_standing (s : State) (f : ConditionFlag) : (s.setFlag f).standing = s.standing := (setFlag_posted s f).standing

theorem setUnit_standing (s : State) (n : Link) (u : LinkUnit) : (s.setUnit n u).standing = s.standing := by
  cases n <;> rfl

theorem elapse_standing (s : State) (d : Nat) : (s.elapse d).standing = s.standing := by
  show ((s.dir.entries, s.dir.changes, s.dir.echoLength), _, ((s.port.age d).h, (s.port.age d).lw, (s.port.age d).ta), _)
    = s.standing
  unfold Port.age
  split <;> rfl

/-! ## What the stroke port and the pen keep -/

/-- A property that stands with what stands and the links, and that the correlation of hits, the directory's staged work and the cross's
update keep. -/
structure KeptByParts (P : State → Prop) : Prop where
  alike : ∀ s t : State, t.standing = s.standing → t.links = s.links → P s → P t
  correlated : ∀ s t : State, Correlated s t → P s → P t
  staged : ∀ s : State, P s → P s.applyStaged
  cross : ∀ s : State, P s → P (crossUpdate s)

section KeptByParts

variable {P : State → Prop} (hP : KeptByParts P) (hs : P s)
include hP

theorem KeptByParts.resolved (h : Resolved s t) (hs : P s) : P t := hP.correlated s t h.correlated hs

theorem KeptByParts.posted (h : Posted s t) (hs : P s) : P t := hP.resolved h.resolved hs

include hs

theorem KeptByParts.of_eq (h : t.standing = s.standing) (hl : t.links = s.links) : P t := hP.alike s t h hl hs

theorem KeptByParts.flag (f : ConditionFlag) : P (s.setFlag f) := hP.posted (setFlag_posted s f) hs

theorem KeptByParts.count (c : Counter) : P (s.count c) := hP.of_eq hs rfl rfl

theorem KeptByParts.answer (words : List Word) : P (s.answer words) := hP.of_eq hs rfl rfl

theorem KeptByParts.enterMode (mode : PortMode) : P (s.enterMode mode) := hP.of_eq hs rfl rfl

theorem KeptByParts.dropAnswers : P s.dropAnswers := by
  unfold State.dropAnswers
  split
  · exact hs
  · refine hP.flag ?_ _
    exact hP.of_eq hs rfl rfl

theorem KeptByParts.abandonRecord : P s.abandonRecord := by
  unfold State.abandonRecord
  split
  · refine hP.flag ?_ _
    exact hP.of_eq hs rfl rfl
  · exact hs

theorem KeptByParts.enqueue (r : QueuedRecord) (stamp : Nat) : P (s.enqueue r stamp) := by
  unfold State.enqueue
  split
  · exact hP.of_eq hs rfl rfl
  · refine hP.count (hP.flag ?_ .intakeDrop) _
    exact hP.of_eq hs rfl rfl

theorem KeptByParts.segmentOpens (seg stamp : Nat) : P (s.segmentOpens seg stamp) := by
  have hdrop := hP.dropAnswers hs
  unfold State.segmentOpens
  dsimp only
  split
  · refine hP.answer (hP.enqueue ?_ _ _) _
    split
    · exact hP.of_eq (hP.flag hdrop .portProtocol) rfl rfl
    · exact hP.of_eq hdrop rfl rfl
  · exact hP.answer (hP.flag hdrop _) _

theorem KeptByParts.segmentCloses (stamp : Nat) : P (s.segmentCloses stamp) := by
  have hdrop := hP.dropAnswers hs
  unfold State.segmentCloses
  dsimp only
  split
  · refine hP.enqueue ?_ _ _
    exact hP.of_eq hdrop rfl rfl
  · exact hP.flag hdrop _

theorem KeptByParts.vectorArrives (beam : Bool) (p : Stroke) (stamp : Nat) : P (s.vectorArrives beam p stamp) := by
  have hdrop := hP.dropAnswers hs
  unfold State.vectorArrives
  dsimp only
  split
  · exact hP.count (hP.enqueue hdrop _ _) _
  · exact hP.flag hdrop _

theorem KeptByParts.readAnswer : P s.readAnswer := by
  unfold State.readAnswer
  split
  · exact hP.of_eq hs rfl rfl
  · refine hP.flag ?_ _
    exact hP.of_eq hs rfl rfl

theorem KeptByParts.historyTakes (e : FifoEntry) : P (s.historyTakes e) := by
  unfold State.historyTakes
  dsimp only
  split
  · exact hP.of_eq hs rfl rfl
  · refine hP.correlated _ _ (releaseTest_correlated _) ?_
    exact hP.of_eq hs rfl rfl

theorem KeptByParts.takeOldest : P s.takeOldest := by
  have hhand : P s.handOldest := by
    unfold State.handOldest
    split
    · exact hs
    · refine hP.historyTakes ?_ _
      exact hP.of_eq hs rfl rfl
  unfold State.takeOldest
  split
  · exact hs
  · exact hP.of_eq hhand rfl rfl

theorem KeptByParts.flushFifo : P s.flushFifo := by
  have hentries : ∀ (l : List FifoEntry) (u : State), P u → P (handEntries l u) := by
    intro l
    induction l with
    | nil => exact fun u hu => hu
    | cons e rest ih =>
      intro u hu
      refine ih _ (hP.historyTakes ?_ e)
      exact hP.of_eq hu rfl rfl
  exact hentries _ s hs

theorem KeptByParts.boundary : P s.boundary := hP.dropAnswers (hP.flushFifo hs)

theorem KeptByParts.leadingEdge (enable : Bool) : P (s.leadingEdge enable) := by
  unfold State.leadingEdge
  dsimp only
  repeat' split
  all_goals exact hP.of_eq hs rfl rfl

theorem KeptByParts.pulseReleased : P s.pulseReleased := by
  unfold State.pulseReleased
  dsimp only
  repeat' split
  all_goals exact hP.of_eq hs rfl rfl

theorem KeptByParts.qualify : P s.qualify := by
  unfold State.qualify State.floodTest State.joinWaiting
  split
  · exact hs
  · split
    · split
      · refine hP.correlated _ _ (releaseTest_correlated _) ?_
        exact hP.of_eq hs rfl rfl
      · exact hP.of_eq hs rfl rfl
    · exact hP.of_eq hs rfl rfl

theorem KeptByParts.tipShows (level : TipLevel) : P (s.tipShows level) := by
  unfold State.tipShows
  split
  · exact hs
  · exact hP.of_eq hs rfl rfl

theorem KeptByParts.debounce : P s.debounce := by
  have hdebounced : P { s with pen := { s.pen with tipDebounced := s.pen.tipRaw, tipTimer := none } } := hP.of_eq hs rfl rfl
  unfold State.debounce
  dsimp only
  split
  · exact hP.resolved (tipDown_resolved _) hdebounced
  · exact hP.resolved (tipUp_resolved _) hdebounced
  · exact hdebounced
  · exact hdebounced

theorem KeptByParts.recheckDebounce : P s.recheckDebounce := by
  unfold State.recheckDebounce
  split
  · split
    · exact hP.debounce hs
    · exact hs
  · exact hs

/-! ## Frame end, frame start, absence -/

theorem KeptByParts.penReckoning : P (penReckoning s) := by
  have hflooded : P { s with pen := { s.pen with floods := s.pen.floods + 1 } } := hP.of_eq hs rfl rfl
  have hflood := hP.flag hflooded .flood
  unfold Sys2Proof.Machine.penReckoning
  split
  · exact hs
  · split
    · dsimp only
      split
      · refine hP.resolved (loseAttempt_resolved _ _) (hP.flag ?_ _)
        exact hP.of_eq hflood rfl rfl
      · exact hflood
    · exact hP.of_eq hs rfl rfl

theorem KeptByParts.menuDwell : P (menuDwell s) := by
  have hfollow : ∀ item, P { s with menu := s.menu.follow item } := fun item =>
    hP.of_eq hs (by simp only [State.standing, follow_dw]) rfl
  unfold Sys2Proof.Machine.menuDwell
  dsimp only
  split
  · exact hfollow _
  · split
    · refine hP.of_eq (hP.resolved (menuOutcome_resolved _ _ _ _) (hP.count ?_ _)) rfl rfl
      exact hP.of_eq (hfollow _) rfl rfl
    · exact hfollow _

theorem KeptByParts.frameEnds (endTime : Nat) (o : FrameEndOrder) : P (s.frameEnds endTime o) := by
  have hclosed : P (s.discardPulse.closeHistory endTime) := by
    refine hP.of_eq hs ?_ ?_
    all_goals
      rw [discardPulse_eq]
      split <;> rfl
  have hhits : P (s.discardPulse.closeHistory endTime).frameHits :=
    hP.of_eq (hP.correlated _ _ (correlateWaiting_correlated _ _ rfl).1 hclosed) rfl rfl
  have htasks : ∀ (tasks : List FrameEndTask) (u : State), P u → P (tasks.foldl (fun t task => runFrameEndTask task t) u) := by
    intro tasks
    induction tasks with
    | nil => exact fun u hu => hu
    | cons task rest ih =>
      intro u hu
      refine ih _ ?_
      cases task with
      | penReckoning => exact hP.penReckoning hu
      | crossUpdate => exact hP.cross u hu
      | resolverCount => exact hP.resolved (resolverCount_resolved u) hu
      | menuDwell => exact hP.menuDwell hu
  exact hP.of_eq (htasks (endTasks o) _ hhits) rfl rfl

theorem KeptByParts.copyStack : P s.copyStack := by
  refine hP.posted (copyStack_posted s) ?_
  exact hP.of_eq hs rfl rfl

theorem KeptByParts.directoryStart : P s.directoryStart := hP.of_eq (hP.staged s hs) rfl rfl

theorem KeptByParts.handStart (v : Bool) : P (s.handStart v) := by
  have hhand : P (s.handWithdrawn true) := hP.of_eq hs rfl rfl
  unfold State.handStart
  dsimp only
  split
  · exact hP.resolved (loseAttempt_resolved _ _) hhand
  · exact hhand

theorem KeptByParts.menuFrameStart : P s.menuFrameStart := hP.of_eq (hP.copyStack hs) rfl rfl

theorem KeptByParts.startWork (o : FrameStartOrder) : P (s.startWork o) := by
  cases o with
  | menuFirst => exact hP.handStart (hP.directoryStart (hP.menuFrameStart hs)) _
  | menuBetween => exact hP.handStart (hP.menuFrameStart (hP.directoryStart hs)) _
  | menuLast => exact hP.menuFrameStart (hP.handStart (hP.directoryStart hs) _)

theorem KeptByParts.frameOpens (seq : Byte) (e : FrameEndOrder) (o : FrameStartOrder) : P (s.frameOpens seq e o) := by
  have htrunc : P (s.boundary.truncate e) := by
    have hb := hP.boundary hs
    unfold State.truncate
    split
    · exact hP.frameEnds (hP.flag hb _) _ _
    · exact hb
  refine hP.answer (hP.startWork ?_ o) _
  exact hP.of_eq htrunc rfl rfl

theorem KeptByParts.frameCloses (o : FrameEndOrder) : P (s.frameCloses o) := by
  have hb := hP.boundary hs
  have hflag := hP.flag hb .portProtocol
  unfold State.frameCloses
  dsimp only
  split
  · split
    · exact hP.enterMode (hP.frameEnds hflag _ o) _
    · exact hP.enterMode (hP.frameEnds hb _ o) _
  · exact hflag

theorem KeptByParts.enterDark (o : DarkOrder) : P (s.enterDark o) := by
  have htasks : ∀ (tasks : List DarkTask) (u : State), P u → P (tasks.foldl (fun t task => runDarkTask task t) u) := by
    intro tasks
    induction tasks with
    | nil => exact fun u hu => hu
    | cons task rest ih =>
      intro u hu
      refine ih _ ?_
      cases task with
      | directory => exact hP.of_eq (hP.staged u hu) rfl rfl
      | resolver => exact hP.resolved (loseAttempt_resolved u _) hu
      | menu => exact hP.of_eq (hP.copyStack hu) rfl rfl
  refine htasks _ _ (hP.flag ?_ .dark)
  exact hP.of_eq hs rfl rfl

theorem KeptByParts.absenceExpires (e : FrameEndOrder) (o : DarkOrder) : P (s.absenceExpires e o) := by
  unfold State.absenceExpires
  split
  · exact hs
  · exact hP.enterDark hs o
  · exact hP.enterDark (hP.frameEnds (hP.flushFifo hs) _ e) o

end KeptByParts

/-- Such a property is kept by every event if the passing of ticks, the link events and the resets keep it. -/
theorem KeptByParts.event {P : State → Prop} (hP : KeptByParts P) (helapse : ∀ (s : State) (d : Nat), P s → P (s.elapse d))
    (hreceives : ∀ (s : State) (n : Link) (rx : Receiver), P s → P (s.setReceiver n rx))
    (hfails : ∀ (s : State) (n : Link) (reason : FailReason), P s → P (s.failFrame n reason))
    (hcompletes : ∀ (s : State) (n : Link) (f : Frame), P s → P (s.frameCompletes n f))
    (hends : ∀ (s : State) (n : Link) (failFirst : Option FailReason), P s → P (s.transmissionEnds n failFirst))
    (hresets : ∀ (s : State) (cause : RestartCause) (rate : LineRate) (tip : TipLevel) (line enable : Bool),
      P (s.afterReset cause rate (penAfterReset tip line enable)))
    (s t : State) (h : Event s t) (hs : P s) : P t := by
  cases h with
  | queue rest => exact hP.of_eq hs rfl rfl
  | elapse d => exact helapse s d hs
  | abandon => exact hP.abandonRecord hs
  | begins v => exact hP.of_eq hs rfl rfl
  | protocol => exact hP.flag hs _
  | frameOpens seq e o => exact hP.frameOpens hs seq e o
  | segmentOpens seg stamp => exact hP.segmentOpens hs seg stamp
  | segmentCloses stamp => exact hP.segmentCloses hs stamp
  | vectorArrives beam p stamp => exact hP.vectorArrives hs beam p stamp
  | frameCloses o => exact hP.frameCloses hs o
  | takeOldest => exact hP.takeOldest hs
  | absenceExpires e o => exact hP.absenceExpires hs e o
  | readAnswer => exact hP.readAnswer hs
  | leadingEdge enable => exact hP.leadingEdge hs enable
  | pulseReleased => exact hP.pulseReleased hs
  | qualify => exact hP.qualify hs
  | tipShows level => exact hP.tipShows hs level
  | debounce => exact hP.debounce hs
  | receives n rx => exact hreceives s n rx hs
  | fails n reason => exact hfails s n reason hs
  | completes n f => exact hcompletes s n f hs
  | transmissionEnds n failFirst => exact hends s n failFirst hs
  | resets cause rate tip line enable => exact hresets s cause rate tip line enable

/-! ## The ranges and the table -/

theorem debounce_standing (s : State) : s.debounce.standing = s.standing := by
  unfold State.debounce
  dsimp only
  split
  · exact (tipDown_resolved _).standing
  · exact (tipUp_resolved _).standing
  · rfl
  · rfl

theorem recheckDebounce_standing (s : State) : s.recheckDebounce.standing = s.standing := by
  unfold State.recheckDebounce
  split
  · split
    · exact debounce_standing s
    · rfl
  · rfl

theorem setCross_posted (s : State) (c : Cross) : Posted { s with cross := c } (s.setCross c) := by
  unfold State.setCross
  dsimp only
  split
  · exact .refl _
  · exact post_posted _ _ _

/-! ## The ranges (R19, R34, R45, R74, R92, R145, R147, R155) -/

theorem State.InRange.of_standing (h : t.standing = s.standing) (r : s.InRange) : t.InRange := by
  simp only [State.standing, Prod.mk.injEq] at h
  obtain ⟨⟨-, hchanges, hecho⟩, ⟨hview, hx, hy, hslew, hk⟩, ⟨hh, hlw, hta⟩, ⟨hwmin, hdd, hf, htb⟩, ⟨hl, hw⟩, ⟨hn, ht, hd⟩, hdw⟩ := h
  constructor <;> simp only [hchanges, hecho, hview, hx, hy, hslew, hk, hh, hlw, hta, hwmin, hdd, hf, htb, hl, hw, hn, ht, hd, hdw]
  · exact r.highWater
  · exact r.lowWater
  · exact r.absence
  · exact r.wmin
  · exact r.deadTime
  · exact r.floodLimit
  · exact r.debounce
  · exact r.latency
  · exact r.halfWidth
  · exact r.frames
  · exact r.threshold
  · exact r.margin
  · exact r.dwell
  · exact r.slew
  · exact r.lostAfter
  · exact r.cross
  · exact r.echo
  · exact r.view
  · exact r.staged

/-- A cross on the screen with the slew limit and the count in force. -/
theorem setCross_inRange {c : Cross} (hp : (c.slew, c.k) = (s.cross.slew, s.cross.k)) (hc : c.x ≤ 4095 ∧ c.y ≤ 4095)
    (r : s.InRange) : (s.setCross c).InRange := by
  obtain ⟨hslew, hk⟩ := Prod.mk.inj hp
  exact State.InRange.of_standing (setCross_posted s c).standing
    { r with slew := hslew ▸ r.slew, lostAfter := hk ▸ r.lostAfter, cross := hc }

theorem moveAxis_le {coord : Nat} (h : coord ≤ 4095) (slew sum count : Nat) : moveAxis slew coord sum count ≤ 4095 := by
  unfold moveAxis
  split
  · exact h
  · exact clampNat_le (Nat.zero_le _) _

/-- What the frame-end update gives the cross (R151, R152). -/
theorem update_keeps (c : Cross) : (c.update.slew, c.update.k) = (c.slew, c.k) ∧
    (c.x ≤ 4095 → c.update.x ≤ 4095) ∧ (c.y ≤ 4095 → c.update.y ≤ 4095) := by
  have hmove := fun (v : Nat) (h : v ≤ 4095) (sum count : Nat) => moveAxis_le h c.slew sum count
  unfold Cross.update
  dsimp only
  split
  · exact ⟨rfl, id, id⟩
  · split
    · exact ⟨rfl, fun h => hmove _ h _ _, fun h => hmove _ h _ _⟩
    · split
      · exact ⟨rfl, fun h => hmove _ h _ _, fun h => hmove _ h _ _⟩
      · exact ⟨rfl, fun h => hmove _ h _ _, fun h => hmove _ h _ _⟩

theorem crossUpdate_inRange (r : s.InRange) : (crossUpdate s).InRange :=
  have hkeeps := update_keeps s.cross
  setCross_inRange hkeeps.1 ⟨hkeeps.2.1 r.cross.1, hkeeps.2.2 r.cross.2⟩ r

theorem portParams_inRange (n : Link) (a : PortParamsArgs) (r : s.InRange) : (portParamsWork n a s).1.InRange := by
  have hh := clampNat_bounds (show 2 ≤ 16 by decide) a.h.toNat
  refine State.InRange.of_standing (postSettings_posted _ _ _ _).standing
    { r with highWater := hh, lowWater := ?_, absence := clampNat_bounds (by decide) _ }
  dsimp only
  split <;> omega

theorem penParams_inRange (n : Link) (a : PenParamsArgs) (r : s.InRange) : (penParamsWork n a s).1.InRange := by
  refine State.InRange.of_standing (postSettings_posted _ _ _ _).standing ?_
  have hstored : State.InRange { s with pen := { s.pen with
      wmin := clampNat 1 15 a.wmin.toNat, dd := clampNat 0 255 a.dd.toNat, f := clampNat 1 255 a.f.toNat,
      tb := clampNat 1 31 a.tb.toNat } } :=
    { r with
      wmin := clampNat_bounds (by decide) _, deadTime := clampNat_le (Nat.zero_le _) _
      floodLimit := clampNat_bounds (by decide) _, debounce := clampNat_bounds (by decide) _ }
  split
  · exact hstored
  · exact State.InRange.of_standing (recheckDebounce_standing _) hstored

theorem pickParams_inRange (n : Link) (a : PickParamsArgs) (r : s.InRange) : (pickParamsWork n a s).1.InRange :=
  State.InRange.of_standing ((postSettings_posted _ _ _ _).standing.trans (releaseTest_correlated _).standing)
    { r with
      latency := clampNat_le (Nat.zero_le _) _, halfWidth := clampNat_le (Nat.zero_le _) _
      frames := clampNat_bounds (by decide) _, threshold := clampNat_bounds (by decide) _
      margin := Nat.le_of_lt_succ a.d.isLt }

theorem crossParams_inRange (n : Link) (slew : Word) (k : Byte) (r : s.InRange) : (crossParamsWork n slew k s).1.InRange :=
  State.InRange.of_standing (postSettings_posted _ _ _ _).standing
    { r with slew := clampNat_le (Nat.zero_le _) _, lostAfter := clampNat_bounds (by decide) _ }

theorem dwellSet_inRange (n : Link) (dw : Byte) (r : s.InRange) : (dwellSetWork n dw s).1.InRange := by
  refine State.InRange.of_standing (postSettings_posted _ _ _ _).standing { r with dwell := ?_ }
  dsimp only
  split
  · exact .inl rfl
  · exact .inr (clampNat_bounds (by decide) _)

theorem crossPlace_inRange (x y : Word) (r : s.InRange) : (crossPlaceWork x y s).1.InRange :=
  setCross_inRange rfl ⟨clampNat_le (Nat.zero_le _) _, clampNat_le (Nat.zero_le _) _⟩ r

theorem crossPark_inRange (r : s.InRange) : (crossParkWork s).1.InRange := setCross_inRange rfl r.cross r

theorem echoSet_inRange (n : Link) (e : Word) (style : Byte) (r : s.InRange) : (echoSetWork n e style s).1.InRange := by
  unfold echoSetWork
  split
  · exact r
  · exact State.InRange.of_standing (postSettings_posted _ _ _ _).standing { r with echo := clampNat_le (Nat.zero_le _) _ }

/-! ## A property of what stands -/

/-- The entries and the staged changes stand. -/
def SameTable (s t : State) : Prop := t.dir.entries = s.dir.entries ∧ t.dir.changes = s.dir.changes

theorem SameTable.of_standing (h : t.standing = s.standing) : SameTable s t := by
  simp only [State.standing, Prod.mk.injEq] at h
  exact ⟨h.1.1, h.1.2.1⟩

theorem Posted.sameTable (h : Posted s t) : SameTable s t := .of_standing h.standing

theorem SameTable.trans {u : State} (h : SameTable s t) (k : SameTable t u) : SameTable s u :=
  ⟨k.1.trans h.1, k.2.trans h.2⟩

theorem recheckDebounce_sameTable (s : State) : SameTable s s.recheckDebounce := .of_standing (recheckDebounce_standing s)

theorem releaseTest_sameTable (s : State) : SameTable s s.releaseTest := .of_standing (releaseTest_correlated s).standing

theorem penParamsWork_sameTable (n : Link) (a : PenParamsArgs) : SameTable s (penParamsWork n a s).1 := by
  refine SameTable.trans ?_ (postSettings_posted _ _ _ _).sameTable
  split
  · exact ⟨rfl, rfl⟩
  · exact ⟨(recheckDebounce_sameTable _).1, (recheckDebounce_sameTable _).2⟩

theorem pickParamsWork_sameTable (n : Link) (a : PickParamsArgs) : SameTable s (pickParamsWork n a s).1 := by
  refine SameTable.trans ?_ (postSettings_posted _ _ _ _).sameTable
  exact ⟨(releaseTest_sameTable _).1, (releaseTest_sameTable _).2⟩

theorem setCross_sameTable (s : State) (c : Cross) : SameTable s (s.setCross c) := (setCross_posted s c).sameTable

/-- A property that the ranges' keeping, the table standing, is enough for, and that the directory's work and a reset keep. -/
structure OfStanding (P : State → Prop) : Prop where
  settles : ∀ s t : State, SameTable s t → (s.InRange → t.InRange) → P s → P t
  staged : ∀ s : State, P s → P s.applyStaged
  take : ∀ (s : State) (n : Link) (op : ChangeOp) (clamped : Bool), op.named → op.scaled → P s → P (s.takeChange n op clamped).1
  resetDirectory : ∀ (s : State) (n : Link), P s → P (s.resetLinkDirectory n)
  reset : ∀ (s : State) (cause : RestartCause) (rate : LineRate) (tip : TipLevel) (line enable : Bool),
    P (s.afterReset cause rate (penAfterReset tip line enable))

section OfStanding

variable {P : State → Prop} (hP : OfStanding P)
include hP

theorem OfStanding.of_eq (hs : P s) (h : t.standing = s.standing) : P t :=
  hP.settles s t (.of_standing h) (State.InRange.of_standing h) hs

theorem OfStanding.standing (s t : State) (h : t.standing = s.standing) (hs : P s) : P t := hP.of_eq hs h

theorem OfStanding.cross (s : State) (hs : P s) : P (crossUpdate s) :=
  hP.settles s _ (setCross_sameTable s _) crossUpdate_inRange hs

theorem OfStanding.resetLink (n : Link) (hs : P s) : P (s.resetLink n) := by
  have hdir := hP.resetDirectory _ n (hP.of_eq hs (setUnit_standing s n (s.unit n).flushed))
  refine hP.of_eq hdir ?_
  have hdrop : ∀ u : State, (u.dropFiltersOf n).standing = u.standing := fun u => by
    unfold State.dropFiltersOf
    dsimp only
    split <;> rfl
  unfold State.resetLink State.revertMode
  split
  · exact (setMode_resolved _ _ _).standing.trans (hdrop _)
  · exact hdrop _

theorem OfStanding.changeWork {n : Link} {w : State × Reply} (h : ChangeWork n s w) (hs : P s) : P w.1 := by
  obtain he | ⟨op, clamped, hnamed, hscaled, rfl⟩ := h
  · exact he ▸ hs
  · exact hP.take s n op clamped hnamed hscaled hs

/-- The work of a command keeps such a property. -/
theorem OfStanding.work (s : State) (n : Link) (c : LinkCmd) (hs : P s) : P (commandWork n c s).1 := by
  cases c with
  | segDefine a => exact hP.changeWork (segDefineWork_change a) hs
  | segSet a => exact hP.changeWork (segSetWork_change a) hs
  | segShare seg => exact hP.changeWork (segShareWork_change seg) hs
  | segRelease seg => exact hP.changeWork (segReleaseWork_change seg) hs
  | segMenu a => exact hP.changeWork (segMenuWork_change a) hs
  | viewSet a => exact hP.changeWork (viewSetWork_change a) hs
  | segQuery seg => dsimp only [commandWork, segQueryWork]; split <;> exact hs
  | echoSet e style =>
    refine hP.settles s _ ?_ (echoSet_inRange n e style) hs
    dsimp only [commandWork, echoSetWork]
    split
    · exact ⟨rfl, rfl⟩
    · exact (postSettings_posted _ _ _ _).sameTable
  | filterInsert a =>
    refine hP.of_eq hs ?_
    dsimp only [commandWork, filterInsertWork]
    repeat' split
    all_goals rfl
  | filterDelete index =>
    refine hP.of_eq hs ?_
    dsimp only [commandWork, filterDeleteWork]
    repeat' split
    all_goals rfl
  | filterEnable index enabled =>
    refine hP.of_eq hs ?_
    dsimp only [commandWork, filterEnableWork]
    repeat' split
    all_goals rfl
  | pagePush page =>
    dsimp only [commandWork, pagePushWork]
    split
    · exact hs
    · exact hP.of_eq hs (stackOp_resolved _ _).standing
  | pageBack | pageHome => exact hP.of_eq hs (stackOp_resolved _ _).standing
  | dwellSet dw => exact hP.settles s _ (postSettings_posted _ _ _ _).sameTable (dwellSet_inRange n dw) hs
  | crossPlace x y => exact hP.settles s _ (setCross_sameTable s _) (crossPlace_inRange x y) hs
  | crossPark => exact hP.settles s _ (setCross_sameTable s _) crossPark_inRange hs
  | crossParams slew k => exact hP.settles s _ (postSettings_posted _ _ _ _).sameTable (crossParams_inRange n slew k) hs
  | portParams a => exact hP.settles s _ (postSettings_posted _ _ _ _).sameTable (portParams_inRange n a) hs
  | penParams a =>
    exact hP.settles s _ (penParamsWork_sameTable n a) (penParams_inRange n a) hs
  | pickParams a => exact hP.settles s _ (pickParamsWork_sameTable n a) (pickParams_inRange n a) hs
  | snapSet a => exact hP.of_eq hs (postSettings_posted _ _ _ _).standing
  | penResume => exact hP.of_eq hs rfl
  | modeSet mode =>
    dsimp only [commandWork, modeSetWork]
    split
    · exact hs
    · exact hP.of_eq hs (setMode_resolved _ _ _).standing
  | pickCancel =>
    dsimp only [commandWork, pickCancelWork]
    split
    · exact hP.of_eq hs (loseAttempt_resolved _ _).standing
    · exact hP.of_eq hs (loseAttempt_resolved _ _).standing
    · exact hs
    · exact hs
  | noticeMask classes =>
    refine hP.of_eq hs ?_
    have hmask := setUnit_standing s n { s.unit n with mask := classes.extractLsb' 0 7 }
    dsimp only [commandWork, noticeMaskWork]
    split
    · rfl
    · dsimp only
      split
      · exact (post_posted _ _ _).standing.trans hmask
      · exact hmask
  | flagsClear flags =>
    dsimp only [commandWork, flagsClearWork]
    split
    · exact hs
    · exact hP.of_eq hs rfl
  | statsRead clear =>
    refine hP.of_eq hs ?_
    dsimp only [commandWork, statsReadWork]
    split <;> rfl
  | linkReset link =>
    dsimp only [commandWork, linkResetWork]
    split
    · exact hs
    · exact hP.resetLink _ hs
  | partReset => exact hP.reset s _ _ _ _ _
  | filterRead _ | crossRead | statusRead | ident => exact hs

theorem OfStanding.keptByWork : KeptByWork P where
  unit := fun s n u _ _ => hP.standing s _ (setUnit_standing s n u)
  flag := fun s f => hP.standing s _ (setFlag_standing s f)
  work := hP.work

theorem OfStanding.keptByParts : KeptByParts P where
  alike := fun s t h _ => hP.standing s t h
  correlated := fun s t h => hP.standing s t h.standing
  staged := hP.staged
  cross := hP.cross

/-- Such a property is kept by every event. -/
theorem OfStanding.event : ∀ s t : State, Event s t → P s → P t :=
  hP.keptByParts.event (fun s d => hP.standing s _ (elapse_standing s d)) (fun _ n rx h => hP.keptByWork.setReceiver n h rx)
    (fun _ n reason h => hP.keptByWork.failFrame n h reason) (fun _ n f h => hP.keptByWork.frameCompletes n h f)
    (fun _ n failFirst h => hP.keptByWork.transmissionEnds n h failFirst) hP.reset

end OfStanding

end Standing

end Sys2Proof.Machine
end

section
/-! PROOFS. The directory's work on its table, its staged changes and the view (O4, O5), and the two statements. -/

namespace Sys2Proof.Machine

section Directory

variable {s : State}

/-! ## The form of the directory (R22, R23) -/

theorem State.DirectoryFormed.of_sameTable {t : State} (h : SameTable s t) (f : s.DirectoryFormed) : t.DirectoryFormed where
  entries := by rw [h.1]; exact f.entries
  changes := by rw [h.2]; exact f.changes

theorem recheck_wf {c : Change} {d : Dir} (hn : c.op.named) (hd : Dir.wf d = true) : Dir.wf (c.recheck d) = true := by
  unfold Change.recheck
  split
  · exact apply_wf c.op c.issuer d hd hn
  · exact hd

theorem sweeps_wf (set : LinkSet) {d : Dir} (hd : Dir.wf d = true) : Dir.wf (Dir.sweeps set d) = true := by
  have h0 : Dir.wf (if set.l0 then Dir.sweep .link0 d else d) = true := by
    split
    · exact sweep_wf _ d hd
    · exact hd
  unfold Dir.sweeps
  dsimp only
  split
  · exact sweep_wf _ _ h0
  · exact h0

theorem projected_wf (f : s.DirectoryFormed) : Dir.wf s.dir.projected = true := by
  have hfold : ∀ (changes : List Change) (d : Dir), (∀ c ∈ changes, c.op.named) → Dir.wf d = true →
      Dir.wf (changes.foldl (fun d c => c.recheck d) d) = true := by
    intro changes
    induction changes with
    | nil => exact fun d _ hd => hd
    | cons c rest ih =>
      exact fun d hn hd => ih _ (fun c' h' => hn c' (List.mem_cons_of_mem _ h')) (recheck_wf (hn c List.mem_cons_self) hd)
  exact hfold _ _ f.changes (sweeps_wf _ f.entries)

theorem applyChange_changes (s : State) (c : Change) : (s.applyChange c).dir.changes = s.dir.changes := by
  unfold State.applyChange
  dsimp only
  split <;> rfl

theorem takeChange_formed (n : Link) {op : ChangeOp} (clamped : Bool) (hn : op.named) (f : s.DirectoryFormed) :
    (s.takeChange n op clamped).1.DirectoryFormed := by
  unfold State.takeChange
  split
  · exact f
  · dsimp only
    split
    · refine State.DirectoryFormed.of_sameTable (s := State.applyChange { s with dir := { s.dir with withdrawn := [] } } ⟨n, op⟩)
        ⟨rfl, rfl⟩ ⟨?_, ?_⟩
      · rw [applyChange_entries]
        exact apply_wf op n _ f.entries hn
      · rw [applyChange_changes]
        exact f.changes
    · split
      · exact f
      · refine ⟨f.entries, fun c hc => ?_⟩
        obtain hc | hc := List.mem_append.1 hc
        · exact f.changes c hc
        · rw [List.mem_singleton.1 hc]
          exact hn

theorem mem_filter_changes {P : ChangeOp → Prop} (h : ∀ c ∈ s.dir.changes, P c.op) (keep : Change → Bool) :
    ∀ c ∈ s.dir.changes.filter keep, P c.op := fun c hc => h c (List.mem_filter.1 hc).1

theorem resetLinkDirectory_formed (n : Link) (f : s.DirectoryFormed) : (s.resetLinkDirectory n).DirectoryFormed := by
  have hkept := mem_filter_changes f.changes (fun c => c.issuer != n)
  unfold State.resetLinkDirectory
  dsimp only
  split
  · exact ⟨sweep_wf n _ f.entries, hkept⟩
  · exact ⟨f.entries, hkept⟩

theorem directoryFormed_ofStanding : OfStanding State.DirectoryFormed where
  settles := fun _ _ h _ f => .of_sameTable h f
  staged := fun s f =>
    ⟨by rw [applyStaged_entries]; exact projected_wf f, by rw [(applyStaged_directed s).2.1]; exact fun c hc => nomatch hc⟩
  take := fun _ n _ clamped hn _ f => takeChange_formed n clamped hn f
  resetDirectory := fun _ n f => resetLinkDirectory_formed n f
  reset := fun _ _ _ _ _ _ => ⟨rfl, fun c hc => nomatch hc⟩

/-! ## The view and its staged changes (R34, R160) -/

theorem applyChange_view {c : Change} (hc : c.op.scaled) (hv : s.coord.view.scaled) : (s.applyChange c).coord.view.scaled := by
  unfold State.applyChange
  obtain ⟨n, op⟩ := c
  cases op with
  | view v => exact hc
  | _ => exact hv

theorem applyListed_view {c : Change} (hc : c.op.scaled) (hv : s.coord.view.scaled) : (s.applyListed c).coord.view.scaled := by
  unfold State.applyListed
  split
  · exact applyChange_view hc hv
  · rw [((setFlag_posted _ _).trans (post_posted _ _ _)).coord]
    exact hv

theorem applyListed_foldl_view (changes : List Change) (s : State) (hc : ∀ c ∈ changes, c.op.scaled)
    (hv : s.coord.view.scaled) : (changes.foldl State.applyListed s).coord.view.scaled := by
  induction changes generalizing s with
  | nil => exact hv
  | cons c rest ih =>
    exact ih _ (fun c' h' => hc c' (List.mem_cons_of_mem _ h')) (applyListed_view (hc c List.mem_cons_self) hv)

theorem applyStaged_view (r : s.InRange) : s.applyStaged.coord.view.scaled := by
  unfold State.applyStaged
  dsimp only
  refine applyListed_foldl_view _ _ r.staged ?_
  split <;> split <;> exact r.view

/-- Directory work that leaves the view scaled, and scaled changes staged, keeps the ranges. -/
theorem Directed.inRange {t : State} (h : Directed s t) (hv : t.coord.view.scaled) (hc : ∀ c ∈ t.dir.changes, c.op.scaled)
    (r : s.InRange) : t.InRange where
  highWater := by rw [h.port]; exact r.highWater
  lowWater := by rw [h.port]; exact r.lowWater
  absence := by rw [h.port]; exact r.absence
  wmin := by rw [h.pen]; exact r.wmin
  deadTime := by rw [h.pen]; exact r.deadTime
  floodLimit := by rw [h.pen]; exact r.floodLimit
  debounce := by rw [h.pen]; exact r.debounce
  latency := by rw [h.corr]; exact r.latency
  halfWidth := by rw [h.corr]; exact r.halfWidth
  frames := by rw [h.res]; exact r.frames
  threshold := by rw [h.res]; exact r.threshold
  margin := by rw [h.res]; exact r.margin
  dwell := by rw [h.menu]; exact r.dwell
  slew := by rw [h.cross]; exact r.slew
  lostAfter := by rw [h.cross]; exact r.lostAfter
  cross := by rw [h.cross]; exact r.cross
  echo := by rw [h.dirSame]; exact r.echo
  view := hv
  staged := hc

theorem takeChange_inRange (n : Link) {op : ChangeOp} (clamped : Bool) (hop : op.scaled) (r : s.InRange) :
    (s.takeChange n op clamped).1.InRange := by
  unfold State.takeChange
  split
  · exact r
  · dsimp only
    split
    · have hr : State.InRange { s with dir := { s.dir with withdrawn := [] } } := { r with }
      refine State.InRange.of_standing (s := State.applyChange { s with dir := { s.dir with withdrawn := [] } } ⟨n, op⟩) rfl ?_
      refine (applyChange_directed _ _).inRange (applyChange_view hop r.view) ?_ hr
      rw [applyChange_changes]
      exact r.staged
    · split
      · exact r
      · refine { r with staged := fun c hc => ?_ }
        obtain hc | hc := List.mem_append.1 hc
        · exact r.staged c hc
        · rw [List.mem_singleton.1 hc]
          exact hop

theorem resetLinkDirectory_inRange (n : Link) (r : s.InRange) : (s.resetLinkDirectory n).InRange := by
  have hkept := mem_filter_changes r.staged (fun c => c.issuer != n)
  unfold State.resetLinkDirectory
  dsimp only
  split
  · exact { r with staged := hkept }
  · exact { r with staged := hkept }

theorem afterReset_inRange (s : State) (cause : RestartCause) (rate : LineRate) (tip : TipLevel) (line enable : Bool) :
    (s.afterReset cause rate (penAfterReset tip line enable)).InRange := by
  constructor <;> simp [State.afterReset, penAfterReset, State.reset, View.scaled]

theorem inRange_ofStanding : OfStanding State.InRange where
  settles := fun _ _ _ h r => h r
  staged := fun s r =>
    (applyStaged_directed s).1.inRange (applyStaged_view r)
      (by rw [(applyStaged_directed s).2.1]; exact fun c hc => nomatch hc) r
  take := fun _ n _ clamped _ hop r => takeChange_inRange n clamped hop r
  resetDirectory := fun _ n r => resetLinkDirectory_inRange n r
  reset := afterReset_inRange

end Directory

/-- Settles O4: the form of the directory is of what stands, and its work keeps it. -/
theorem stepKeepsDirectoryFormed : Obligations.StepKeepsDirectoryFormed := step_keeps directoryFormed_ofStanding.event

/-- Settles O5: the ranges are of what stands, and the directory's work keeps the view's scale. -/
theorem stepKeepsParametersInRange : Obligations.StepKeepsParametersInRange := step_keeps inRange_ofStanding.event

end Sys2Proof.Machine
end

section
/-! PROOFS. The links between commands (O7): what the work of a command leaves of a link's unit, the taking of frames, and the statement. -/

namespace Sys2Proof.Machine

/-! ## A link's unit between commands -/

/-- How a link's unit stands between commands (R173, R174). -/
structure LinkUnit.Settled (u : LinkUnit) : Prop where
  notBusy : u.busy = false
  sent : u.tx = none → u.slot = none ∧ u.queue = []
  taken : u.slot = none → u.inbound = []

theorem linksServed_iff {s : State} : s.LinksServed ↔ ∀ n, (s.unit n).Settled :=
  ⟨fun h n => ⟨h.notBusy n, h.sent n, h.taken n⟩, fun h => ⟨fun n => (h n).notBusy, fun n => (h n).sent, fun n => (h n).taken⟩⟩

/-- What the work of a command leaves of a link's unit: it begins nothing on a link whose transmitter is blocked, and leaves nothing waiting
on one that is not (R174). -/
structure LinkUnit.Serves (u v : LinkUnit) : Prop where
  inbound : v.inbound = u.inbound
  busy : v.busy = u.busy
  sending : u.busy = true ∨ u.tx ≠ none → v.tx = u.tx ∧ v.slot = u.slot
  served : u.served → v.served

theorem LinkUnit.Serves.refl (u : LinkUnit) : u.Serves u := ⟨rfl, rfl, fun _ => ⟨rfl, rfl⟩, id⟩

theorem LinkUnit.Serves.trans {u v w : LinkUnit} (h : u.Serves v) (k : v.Serves w) : u.Serves w where
  inbound := k.inbound.trans h.inbound
  busy := k.busy.trans h.busy
  sending := fun c => by
    obtain ⟨htx, hslot⟩ := h.sending c
    obtain ⟨ktx, kslot⟩ := k.sending (by rw [h.busy, htx]; exact c)
    exact ⟨ktx.trans htx, kslot.trans hslot⟩
  served := fun c => k.served (h.served c)

theorem LinkUnit.Offered.serves {u v : LinkUnit} (h : u.Offered v) : u.Serves v := ⟨h.inbound, h.busy, h.sending, h.served⟩

theorem LinkUnit.Settled.of_serves {u v : LinkUnit} (hu : u.Settled) (h : u.Serves v) : v.Settled where
  notBusy := h.busy.trans hu.notBusy
  sent := h.served (fun _ => hu.sent) (h.busy.trans hu.notBusy)
  taken := fun hv => by
    rw [h.inbound]
    by_cases htx : u.tx = none
    · exact hu.taken (hu.sent htx).1
    · exact hu.taken ((h.sending (.inr htx)).2 ▸ hv)

/-- The units of both links are left so. -/
def Serves (s t : State) : Prop := ∀ n, (s.unit n).Serves (t.unit n)

section Serves

variable {s t : State}

theorem Serves.refl (s : State) : Serves s s := fun _ => .refl _

theorem Serves.trans {u : State} (h : Serves s t) (k : Serves t u) : Serves s u := fun n => (h n).trans (k n)

theorem Serves.of_links (h : t.links = s.links) : Serves s t := fun n => by
  have hu : t.unit n = s.unit n := by
    cases n
    · exact congrArg LinkUnits.u0 h
    · exact congrArg LinkUnits.u1 h
  rw [hu]
  exact .refl _

/-- A change before that leaves the links does not show in the units. -/
theorem Serves.before {u : State} (h : Serves t u) (hl : t.links = s.links) : Serves s u := (Serves.of_links hl).trans h

theorem Correlated.serves (h : Correlated s t) : Serves s t := fun n => (h.unit n).serves

theorem Resolved.serves (h : Resolved s t) : Serves s t := fun n => (h.unit n).serves

theorem Posted.serves (h : Posted s t) : Serves s t := fun n => (h.unit n).serves

theorem Directed.serves (h : Directed s t) : Serves s t := fun n => (h.unit n).serves

theorem State.LinksServed.of_serves (h : Serves s t) (hs : s.LinksServed) : t.LinksServed :=
  linksServed_iff.2 fun n => (linksServed_iff.1 hs n).of_serves (h n)

/-- A change of one link's unit. -/
theorem Serves.of_setUnit {n : Link} {u : LinkUnit} (h : (s.unit n).Serves u) : Serves s (s.setUnit n u) := fun m => by
  rw [unit_setUnit]
  split
  · rename_i he
    exact he ▸ h
  · exact .refl _

theorem setCross_serves (s : State) (c : Cross) : Serves s (s.setCross c) := (setCross_posted s c).serves.before rfl

/-! ## The work of commands -/

theorem takeChange_serves (n : Link) (op : ChangeOp) (clamped : Bool) : Serves s (s.takeChange n op clamped).1 := by
  unfold State.takeChange
  split
  · exact .refl s
  · dsimp only
    split
    · have happly := (applyChange_directed { s with dir := { s.dir with withdrawn := [] } } ⟨n, op⟩).serves
      exact (Serves.of_links rfl).trans (happly.trans (.of_links rfl))
    · split
      · exact .refl s
      · exact .of_links rfl

theorem ChangeWork.serves {n : Link} {w : State × Reply} (h : ChangeWork n s w) : Serves s w.1 := by
  obtain he | ⟨op, clamped, -, -, rfl⟩ := h
  · rw [he]
    exact .refl s
  · exact takeChange_serves n op clamped

theorem noticeMaskWork_serves (n : Link) (classes : Byte) : Serves s (noticeMaskWork n classes s).1 := by
  have hmask : Serves s (s.setUnit n { s.unit n with mask := classes.extractLsb' 0 7 }) :=
    .of_setUnit ⟨rfl, rfl, fun _ => ⟨rfl, rfl⟩, id⟩
  unfold noticeMaskWork
  split
  · exact .refl s
  · dsimp only
    split
    · exact hmask.trans (post_posted _ _ _).serves
    · exact hmask

theorem resetLink_serves (n : Link) : Serves s (s.resetLink n) := by
  have hflush : Serves s (s.setUnit n (s.unit n).flushed) :=
    .of_setUnit ⟨rfl, rfl, fun _ => ⟨rfl, rfl⟩, fun h hb ht => ⟨(h hb ht).1, rfl⟩⟩
  have hdir : ∀ u : State, Serves u (u.resetLinkDirectory n) := fun u => by
    unfold State.resetLinkDirectory
    dsimp only
    split <;> exact .of_links rfl
  have hdrop : ∀ u : State, Serves u (u.dropFiltersOf n) := fun u => by
    unfold State.dropFiltersOf
    dsimp only
    split <;> exact .of_links rfl
  have hrevert : ∀ u : State, Serves u (u.revertMode n) := fun u => by
    unfold State.revertMode
    split
    · exact (setMode_resolved _ _ _).serves
    · exact .refl u
  exact hflush.trans ((hdir _).trans ((hdrop _).trans (hrevert _)))

theorem recheckDebounce_serves (s : State) : Serves s s.recheckDebounce := by
  unfold State.recheckDebounce
  split
  · split
    · unfold State.debounce
      dsimp only
      split
      · exact (tipDown_resolved _).serves.before rfl
      · exact (tipUp_resolved _).serves.before rfl
      · exact .of_links rfl
      · exact .of_links rfl
    · exact .refl s
  · exact .refl s

theorem penParamsWork_serves (n : Link) (a : PenParamsArgs) : Serves s (penParamsWork n a s).1 := by
  refine Serves.trans ?_ (postSettings_posted _ _ _ _).serves
  split
  · exact .of_links rfl
  · exact (recheckDebounce_serves _).before rfl

theorem pickParamsWork_serves (n : Link) (a : PickParamsArgs) : Serves s (pickParamsWork n a s).1 :=
  ((releaseTest_correlated _).serves.trans (postSettings_posted _ _ _ _).serves).before rfl

/-- The work of every command but PART_RESET, whose reset sets both units anew (R185), leaves both units so. -/
theorem commandWork_serves (n : Link) {c : LinkCmd} (hc : c ≠ .partReset) : Serves s (commandWork n c s).1 := by
  cases c with
  | segDefine a => exact (segDefineWork_change a).serves
  | segSet a => exact (segSetWork_change a).serves
  | segShare seg => exact (segShareWork_change seg).serves
  | segRelease seg => exact (segReleaseWork_change seg).serves
  | segMenu a => exact (segMenuWork_change a).serves
  | viewSet a => exact (viewSetWork_change a).serves
  | segQuery seg => dsimp only [commandWork, segQueryWork]; split <;> exact .refl s
  | echoSet e style =>
    dsimp only [commandWork, echoSetWork]
    split
    · exact .refl s
    · exact (postSettings_posted _ _ _ _).serves.before rfl
  | filterInsert a =>
    dsimp only [commandWork, filterInsertWork]
    repeat' split
    all_goals exact .of_links rfl
  | filterDelete index =>
    dsimp only [commandWork, filterDeleteWork]
    repeat' split
    all_goals exact .of_links rfl
  | filterEnable index enabled =>
    dsimp only [commandWork, filterEnableWork]
    repeat' split
    all_goals exact .of_links rfl
  | pagePush page =>
    dsimp only [commandWork, pagePushWork]
    split
    · exact .refl s
    · exact (stackOp_resolved _ _).serves
  | pageBack | pageHome => exact (stackOp_resolved _ _).serves
  | dwellSet _ | crossParams _ _ | portParams _ | snapSet _ => exact (postSettings_posted _ _ _ _).serves.before rfl
  | crossPlace x y => exact setCross_serves s _
  | crossPark => exact setCross_serves s _
  | penParams a => exact penParamsWork_serves n a
  | penResume => exact .of_links rfl
  | pickParams a => exact pickParamsWork_serves n a
  | modeSet mode =>
    dsimp only [commandWork, modeSetWork]
    split
    · exact .refl s
    · exact (setMode_resolved _ _ _).serves
  | pickCancel =>
    dsimp only [commandWork, pickCancelWork]
    split
    · exact (loseAttempt_resolved _ _).serves
    · exact (loseAttempt_resolved _ _).serves
    · exact .refl s
    · exact .refl s
  | noticeMask classes => exact noticeMaskWork_serves n classes
  | flagsClear flags =>
    dsimp only [commandWork, flagsClearWork]
    split
    · exact .refl s
    · exact .of_links rfl
  | statsRead clear =>
    dsimp only [commandWork, statsReadWork]
    split <;> exact .of_links rfl
  | linkReset link =>
    dsimp only [commandWork, linkResetWork]
    split
    · exact .refl s
    · exact resetLink_serves _
  | partReset => exact absurd rfl hc
  | filterRead _ | crossRead | statusRead | ident => exact .refl s

/-! ## The taking of frames -/

/-- A link's unit that can take a reply: no frame waits behind an idle transmitter (R173). -/
structure LinkUnit.Taking (u : LinkUnit) : Prop where
  notBusy : u.busy = false
  idle : u.tx = none → u.inbound = []

theorem LinkUnit.Settled.taking {u : LinkUnit} (h : u.Settled) : u.Taking where
  notBusy := h.notBusy
  idle := fun ht => h.taken (h.sent ht).1

/-- A reply placed on such a link settles it: an idle transmitter has begun it, and a busy one leaves it in the slot (R174). -/
theorem LinkUnit.Taking.settled_reply {u : LinkUnit} (h : u.Taking) (r : Reply) :
    ({ u with slot := some r } : LinkUnit).kick.Settled := by
  by_cases htx : u.tx = none
  · rw [LinkUnit.kick_of_reply (u := { u with slot := some r }) h.notBusy htx rfl]
    exact ⟨h.notBusy, fun hn => (nomatch hn), fun _ => h.idle htx⟩
  · rw [LinkUnit.kick_of_blocked (u := { u with slot := some r }) (.inr htx)]
    exact ⟨h.notBusy, fun hn => absurd hn htx, fun hn => nomatch hn⟩

/-- The other link is settled, and this one can take a reply. -/
structure TakingAt (s : State) (n : Link) : Prop where
  here : (s.unit n).Taking
  other : ∀ m, m ≠ n → (s.unit m).Settled

theorem takingAt_of_served (hs : s.LinksServed) (n : Link) : TakingAt s n :=
  ⟨(linksServed_iff.1 hs n).taking, fun m _ => linksServed_iff.1 hs m⟩

theorem TakingAt.setUnit {n : Link} (h : TakingAt s n) {u : LinkUnit} (hu : u.Taking) : TakingAt (s.setUnit n u) n where
  here := by rw [unit_setUnit_same]; exact hu
  other := fun m hm => by rw [unit_setUnit, if_neg hm]; exact h.other m hm

theorem linksServed_setUnit {n : Link} {u : LinkUnit} (hu : u.Settled) (hother : ∀ m, m ≠ n → (s.unit m).Settled) :
    (s.setUnit n u).LinksServed := by
  refine linksServed_iff.2 fun m => ?_
  rw [unit_setUnit]
  split
  · exact hu
  · exact hother m ‹_›

theorem placeReply_served {n : Link} (h : TakingAt s n) (r : Reply) : (s.placeReply n r).LinksServed :=
  linksServed_setUnit (h.here.settled_reply r) h.other

theorem afterReset_served (s : State) (cause : RestartCause) (rate : LineRate) (pen : Pen) :
    (s.afterReset cause rate pen).LinksServed :=
  linksServed_iff.2 fun n => by cases n <;> exact ⟨rfl, fun h => (nomatch h), fun _ => rfl⟩

theorem unit_setBusy_same (s : State) (n : Link) (b : Bool) : (s.setBusy n b).unit n = { s.unit n with busy := b } :=
  unit_setUnit_same s n _

theorem unit_setBusy_ne {m n : Link} (h : m ≠ n) (s : State) (b : Bool) : (s.setBusy n b).unit m = s.unit m :=
  unit_setUnit_ne h.symm s _

theorem carryOut_served {n : Link} (h : TakingAt s n) (c : LinkCmd) : (s.carryOut n c).LinksServed := by
  by_cases hc : c = .partReset
  · subst hc
    exact afterReset_served _ _ _ _
  · obtain ⟨hbusy, hidle⟩ := h.here
    have hwork := commandWork_serves (s := s.setBusy n true) n hc
    have hn := hwork n
    rw [unit_setBusy_same] at hn
    obtain ⟨r, hr⟩ : ∃ r, (commandWork n c (s.setBusy n true)).2 = some r := by
      cases c with
      | partReset => exact absurd rfl hc
      | _ => exact ⟨_, rfl⟩
    rw [State.carryOut, ← Prod.eta (commandWork n c (s.setBusy n true)), hr]
    refine placeReply_served ⟨?_, fun m hm => ?_⟩ r
    · rw [unit_setBusy_same]
      exact ⟨rfl, fun htx => hn.inbound.trans (hidle ((hn.sending (.inl rfl)).1.symm.trans htx))⟩
    · have hm' := hwork m
      rw [unit_setBusy_ne hm] at hm' ⊢
      exact (h.other m hm).of_serves hm'

theorem takeFrame_served {n : Link} (h : TakingAt s n) (f : Frame) : (s.takeFrame n f).LinksServed := by
  unfold State.takeFrame
  split
  · exact placeReply_served h _
  · exact placeReply_served h _
  · exact carryOut_served h _

/-- A link's unit as a transmission's beginning leaves it: settled, but that frames may wait behind it (R173, R174). -/
structure LinkUnit.Begun (u : LinkUnit) : Prop extends u.Taking where
  sent : u.tx = none → u.slot = none ∧ u.queue = []

theorem LinkUnit.Settled.begun {u : LinkUnit} (h : u.Settled) : u.Begun := ⟨h.taking, h.sent⟩

theorem LinkUnit.Begun.of_serves {u v : LinkUnit} (hu : u.Begun) (h : u.Serves v) : v.Begun where
  notBusy := h.busy.trans hu.notBusy
  idle := fun hv => by
    by_cases htx : u.tx = none
    · exact h.inbound.trans (hu.idle htx)
    · exact absurd ((h.sending (.inr htx)).1.symm.trans hv) htx
  sent := h.served (fun _ => hu.sent) (h.busy.trans hu.notBusy)

/-- The end of a transmission lets the next one begin (R174). -/
theorem LinkUnit.Settled.begun_kick {u : LinkUnit} (h : u.Settled) : ({ u with tx := none } : LinkUnit).kick.Begun where
  notBusy := (LinkUnit.kick_busy _).trans h.notBusy
  idle := fun ht => by
    rw [LinkUnit.kick_inbound]
    cases hslot : u.slot with
    | none => exact h.taken hslot
    | some r =>
      rw [LinkUnit.kick_of_reply (u := { u with tx := none }) h.notBusy rfl hslot] at ht
      exact nomatch ht
  sent := LinkUnit.kick_served _ ((LinkUnit.kick_busy _).trans h.notBusy)

/-- The other link is settled, and this one's transmission has begun. -/
structure BegunAt (s : State) (n : Link) : Prop where
  here : (s.unit n).Begun
  other : ∀ m, m ≠ n → (s.unit m).Settled

theorem begunAt_of_served (hs : s.LinksServed) (n : Link) : BegunAt s n :=
  ⟨(linksServed_iff.1 hs n).begun, fun m _ => linksServed_iff.1 hs m⟩

theorem BegunAt.takingAt {n : Link} (h : BegunAt s n) : TakingAt s n := ⟨h.here.toTaking, h.other⟩

theorem BegunAt.of_serves {n : Link} (h : BegunAt s n) (k : Serves s t) : BegunAt t n :=
  ⟨h.here.of_serves (k n), fun m hm => (h.other m hm).of_serves (k m)⟩

theorem BegunAt.setUnit {n : Link} (h : BegunAt s n) {u : LinkUnit} (hu : u.Begun) : BegunAt (s.setUnit n u) n where
  here := by rw [unit_setUnit_same]; exact hu
  other := fun m hm => by rw [unit_setUnit, if_neg hm]; exact h.other m hm

/-- The oldest frame then taken, if the reply slot is empty, settles the link (R173). -/
theorem takeNext_served {n : Link} (h : BegunAt s n) : (s.takeNext n).LinksServed := by
  unfold State.takeNext
  split
  · rename_i f rest hslot hin
    have hbusy : (s.unit n).tx ≠ none := fun htx => (List.cons_ne_nil f rest) (hin.symm.trans (h.here.idle htx))
    exact takeFrame_served
      (h.takingAt.setUnit (u := { s.unit n with inbound := rest }) ⟨h.here.notBusy, fun htx => absurd htx hbusy⟩) f
  · rename_i hwait
    refine linksServed_iff.2 fun m => ?_
    by_cases hm : m = n
    · subst hm
      refine ⟨h.here.notBusy, h.here.sent, fun hslot => ?_⟩
      cases hin : (s.unit m).inbound with
      | nil => rfl
      | cons f rest => exact absurd hin (hwait f rest hslot)
    · exact h.other m hm

/-! ## The link events -/

theorem setReceiver_serves (s : State) (n : Link) (rx : Receiver) : Serves s (s.setReceiver n rx) :=
  .of_setUnit ⟨rfl, rfl, fun _ => ⟨rfl, rfl⟩, id⟩

/-- A frame that fails leaves a link so that a frame may be taken (R171). -/
theorem failFrame_begunAt {n : Link} (h : BegunAt s n) (reason : FailReason) : BegunAt (s.failFrame n reason) n := by
  have hflag := h.of_serves ((setReceiver_serves s n .hunting).trans (setFlag_posted _ (.frameError n)).serves)
  unfold State.failFrame
  dsimp only
  split
  · exact begunAt_of_served (placeReply_served hflag.takingAt _) n
  · exact hflag

theorem failFrame_served (hs : s.LinksServed) (n : Link) (reason : FailReason) : (s.failFrame n reason).LinksServed := by
  have hflag := hs.of_serves ((setReceiver_serves s n .hunting).trans (setFlag_posted _ (.frameError n)).serves)
  unfold State.failFrame
  dsimp only
  split
  · exact placeReply_served (takingAt_of_served hflag n) _
  · exact hflag

theorem frameCompletes_served (hs : s.LinksServed) (n : Link) (f : Frame) : (s.frameCompletes n f).LinksServed := by
  have hrx := hs.of_serves (setReceiver_serves s n .hunting)
  have hn := linksServed_iff.1 hs n
  by_cases hslot : (s.unit n).slot = none
  · rw [frameCompletes_of_free hslot (hn.taken hslot)]
    exact takeFrame_served (takingAt_of_served hrx n) f
  · have hbusy : (s.unit n).tx ≠ none := fun htx => hslot (hn.sent htx).1
    unfold State.frameCompletes
    dsimp only
    split
    · refine takeNext_served ((begunAt_of_served hrx n).setUnit ?_)
      simp only [State.setReceiver, unit_setUnit_same]
      exact ⟨⟨hn.notBusy, fun htx => absurd htx hbusy⟩, fun htx => absurd htx hbusy⟩
    · exact hrx.of_serves (setFlag_posted _ _).serves

theorem transmissionEnds_served (hs : s.LinksServed) (n : Link) (failFirst : Option FailReason) :
    (s.transmissionEnds n failFirst).LinksServed := by
  have hkick := (begunAt_of_served hs n).setUnit (linksServed_iff.1 hs n).begun_kick
  unfold State.transmissionEnds
  split
  · exact hs
  · dsimp only
    split
    · exact takeNext_served (failFrame_begunAt hkick _)
    · exact takeNext_served hkick

theorem elapse_serves (s : State) (d : Nat) : Serves s (s.elapse d) := fun n => by
  cases n <;> exact ⟨rfl, rfl, fun _ => ⟨rfl, rfl⟩, id⟩

end Serves

theorem linksServed_keptByParts : KeptByParts State.LinksServed where
  alike := fun _ _ _ hl hs => hs.of_serves (.of_links hl)
  correlated := fun _ _ h hs => hs.of_serves h.serves
  staged := fun s hs => hs.of_serves (applyStaged_directed s).1.serves
  cross := fun s hs => hs.of_serves (setCross_serves s _)

/-- Settles O7: the shared operations begin nothing on a blocked transmitter and leave nothing waiting on an idle one, and the link events
settle their link. -/
theorem stepKeepsLinksServed : Obligations.StepKeepsLinksServed :=
  step_keeps (linksServed_keptByParts.event (fun s d hs => hs.of_serves (elapse_serves s d))
    (fun s n rx hs => hs.of_serves (setReceiver_serves s n rx)) (fun _ n reason hs => failFrame_served hs n reason)
    (fun _ n f hs => frameCompletes_served hs n f) (fun _ n failFirst hs => transmissionEnds_served hs n failFirst)
    (fun s cause rate _ _ _ => afterReset_served s cause rate _))

end Sys2Proof.Machine
end

section
/-! PROOFS. What the port state rules out (O6): the strokes of the ring, what the frame's end leaves, what the frame's blocks keep of the
port, and the statement. -/

namespace Sys2Proof.Machine

/-! ## The strokes of the ring (3.1, R52) -/

/-- A VECTOR record holds its coordinates, and an element index exactly where it has a segment (3.1, R52). -/
def HistoryRecord.Stroked (r : HistoryRecord) : Prop := r.kind = .vector → r.stroke ≠ none ∧ (r.seg = none ↔ r.element = none)

/-- Every record of the ring is so. -/
def History.Stroked (h : History) : Prop := ∀ r ∈ h.ring, r.Stroked

theorem closeNewest_stroked (t : Nat) {l : List HistoryRecord} (h : ∀ r ∈ l, r.Stroked) : ∀ r ∈ closeNewest t l, r.Stroked := by
  induction l with
  | nil => exact h
  | cons r rest ih =>
    have hr := h r List.mem_cons_self
    cases rest with
    | nil =>
      intro q hq
      rw [List.mem_singleton.1 hq]
      split
      · exact hr
      · exact hr
    | cons r' rest =>
      intro q hq
      obtain rfl | hq := List.mem_cons.1 hq
      · exact hr
      · exact ih (fun p hp => h p (List.mem_cons_of_mem _ hp)) q hq

section History

variable {h : History}

theorem enter_stroked {r : HistoryRecord} (hr : r.Stroked) (hs : h.Stroked) : (h.enter r).Stroked := by
  have hclosed := closeNewest_stroked r.start hs
  unfold History.enter
  dsimp only
  split
  · intro q hq
    obtain hq | hq := List.mem_append.1 hq
    · exact hclosed q hq
    · exact List.mem_singleton.1 hq ▸ hr
  · intro q hq
    obtain hq | hq := List.mem_append.1 hq
    · exact hclosed q (List.mem_of_mem_tail hq)
    · exact List.mem_singleton.1 hq ▸ hr

theorem gapRecord_stroked (start : Nat) (stop : Option Nat) : (gapRecord start stop).Stroked := fun hk => nomatch hk

theorem vectorRecord_stroked (h : History) (beam : Bool) (p : Stroke) (stamp : Nat) : (h.vectorRecord beam p stamp).Stroked := by
  unfold History.vectorRecord HistoryRecord.Stroked
  cases beam with
  | false => exact fun hk => nomatch hk
  | true => cases h.openSeg <;> simp

theorem applyRecord_stroked (record : QueuedRecord) (stamp : Nat) (hs : h.Stroked) : (h.applyRecord record stamp).Stroked := by
  cases record with
  | segmentOpen seg => exact hs
  | segmentClose => exact hs
  | vector beam p =>
    have henter := enter_stroked (vectorRecord_stroked h beam p stamp) hs
    unfold History.applyRecord
    dsimp only
    split
    · exact henter
    · exact henter

theorem closeGap_stroked (stamp : Nat) (hs : h.Stroked) : (h.closeGap stamp).Stroked := by
  unfold History.closeGap
  split
  · exact closeNewest_stroked stamp hs
  · exact hs

theorem takeEntry_stroked (e : FifoEntry) (hs : h.Stroked) : (h.takeEntry e).Stroked := by
  have hopened : (match e.gapStart with | some g => h.openGap g | none => h).Stroked := by
    split
    · exact enter_stroked (gapRecord_stroked _ _) hs
    · exact hs
  unfold History.takeEntry
  dsimp only
  split
  · exact hopened
  · exact applyRecord_stroked _ _ (closeGap_stroked _ hopened)

theorem frameEnd_stroked (endTime : Nat) (gap : Option Nat) (hs : h.Stroked) : (h.frameEnd endTime gap).Stroked := by
  refine closeNewest_stroked endTime ?_
  split
  · exact enter_stroked (gapRecord_stroked _ _) hs
  · exact hs

end History

/-! ## What the frame's blocks keep (R37, R79, R136) -/

section Coherent

variable {s t u : State}

/-- The port, the history, the correlator and the filters stand, and the pen but for the flood guard. -/
structure Framed (s t : State) : Prop where
  port : t.port = s.port
  hist : t.hist = s.hist
  pen : t.pen = { s.pen with floods := t.pen.floods, muted := t.pen.muted }
  corr : t.corr = s.corr
  filt : t.filt = s.filt
  answerOut : t.answerOut = s.answerOut
  pending : t.pending = s.pending

theorem Framed.pulse (h : Framed s t) : t.pen.pulse = s.pen.pulse := by rw [h.pen]

theorem Framed.waiting (h : Framed s t) : t.pen.waiting = s.pen.waiting := by rw [h.pen]

theorem Framed.refl (s : State) : Framed s s := ⟨rfl, rfl, rfl, rfl, rfl, rfl, rfl⟩

theorem Framed.trans (h : Framed s t) (k : Framed t u) : Framed s u where
  port := k.port.trans h.port
  hist := k.hist.trans h.hist
  pen := by
    have hpen := k.pen
    rw [h.pen] at hpen
    exact hpen
  corr := k.corr.trans h.corr
  filt := k.filt.trans h.filt
  answerOut := k.answerOut.trans h.answerOut
  pending := k.pending.trans h.pending

theorem Resolved.framed (h : Resolved s t) : Framed s t :=
  ⟨h.port, h.hist, by rw [h.pen], h.correlated.corr, h.correlated.filt, h.correlated.answerOut, h.correlated.pending⟩

theorem Posted.framed (h : Posted s t) : Framed s t := h.resolved.framed

theorem Directed.framed (h : Directed s t) : Framed s t := ⟨h.port, h.hist, by rw [h.pen], h.corr, h.filt, h.answerOut, h.pending⟩

theorem framed_of_menu (s : State) (m : Menu) : Framed s { s with menu := m } := ⟨rfl, rfl, rfl, rfl, rfl, rfl, rfl⟩

theorem framed_of_cross (s : State) (c : Cross) : Framed s { s with cross := c } := ⟨rfl, rfl, rfl, rfl, rfl, rfl, rfl⟩

theorem setFlag_framed (s : State) (f : ConditionFlag) : Framed s (s.setFlag f) := (setFlag_posted s f).framed

theorem mutePen_framed (s : State) : Framed s s.mutePen :=
  have hmuted : Framed s { s with pen := { s.pen with muted := true } } := ⟨rfl, rfl, rfl, rfl, rfl, rfl, rfl⟩
  (hmuted.trans (setFlag_framed _ .penMuted)).trans (loseAttempt_resolved _ .penMuted).framed

theorem penReckoning_framed (s : State) : Framed s (penReckoning s) := by
  have hfloods : ∀ k, Framed s { s with pen := { s.pen with floods := k } } := fun _ => ⟨rfl, rfl, rfl, rfl, rfl, rfl, rfl⟩
  unfold penReckoning
  split
  · exact .refl s
  · split
    · have hflood := (hfloods (s.pen.floods + 1)).trans (setFlag_framed _ .flood)
      dsimp only
      split
      · exact hflood.trans (mutePen_framed _)
      · exact hflood
    · exact hfloods 0

theorem dwellChoice_framed (s : State) (e : FrameSum) : Framed s (s.dwellChoice e) :=
  have hnumbered : Framed s (State.count { s with res := { s.res with number := s.res.number + 1 } } .attempts) :=
    ⟨rfl, rfl, rfl, rfl, rfl, rfl, rfl⟩
  hnumbered.trans (menuOutcome_resolved _ _ _ _).framed

theorem menuDwell_framed (s : State) : Framed s (menuDwell s) := by
  unfold menuDwell
  dsimp only
  split
  · exact framed_of_menu s _
  · split
    · exact ((framed_of_menu s _).trans (dwellChoice_framed _ _)).trans (framed_of_menu _ _)
    · exact framed_of_menu s _

theorem runFrameEndTask_framed (task : FrameEndTask) (s : State) : Framed s (runFrameEndTask task s) := by
  cases task with
  | penReckoning => exact penReckoning_framed s
  | crossUpdate => exact (framed_of_cross s _).trans (setCross_posted s _).framed
  | resolverCount => exact (resolverCount_resolved s).framed
  | menuDwell => exact menuDwell_framed s

theorem handWithdrawn_framed (s : State) (start : Bool) : Framed s (s.handWithdrawn start) := ⟨rfl, rfl, rfl, rfl, rfl, rfl, rfl⟩

theorem copyStack_framed (s : State) : Framed s s.copyStack :=
  (framed_of_menu s _).trans (copyStack_posted s).framed

theorem menuFrameStart_framed (s : State) : Framed s s.menuFrameStart := (copyStack_framed s).trans (framed_of_menu _ _)

theorem menuDark_framed (s : State) : Framed s s.menuDark := (copyStack_framed s).trans (framed_of_menu _ _)

theorem directoryStart_framed (s : State) : Framed s s.directoryStart :=
  (applyStaged_directed s).1.framed.trans ⟨rfl, rfl, rfl, rfl, rfl, rfl, rfl⟩

theorem handStart_framed (s : State) (v : Bool) : Framed s (s.handStart v) := by
  unfold State.handStart
  dsimp only
  split
  · exact (handWithdrawn_framed s true).trans (loseAttempt_resolved _ _).framed
  · exact handWithdrawn_framed s true

theorem startWork_framed (s : State) (o : FrameStartOrder) : Framed s (s.startWork o) := by
  cases o with
  | menuFirst => exact ((menuFrameStart_framed s).trans (directoryStart_framed _)).trans (handStart_framed _ _)
  | menuBetween => exact ((directoryStart_framed s).trans (menuFrameStart_framed _)).trans (handStart_framed _ _)
  | menuLast => exact ((directoryStart_framed s).trans (handStart_framed _ _)).trans (menuFrameStart_framed _)

theorem runDarkTask_framed (task : DarkTask) (s : State) : Framed s (runDarkTask task s) := by
  cases task with
  | directory => exact (applyStaged_directed s).1.framed.trans (handWithdrawn_framed _ false)
  | resolver => exact (loseAttempt_resolved s _).framed
  | menu => exact menuDark_framed s

theorem foldl_framed {α : Type} {run : α → State → State} (h : ∀ a s, Framed s (run a s)) (l : List α) (s : State) :
    Framed s (l.foldl (fun t a => run a t) s) := by
  induction l generalizing s with
  | nil => exact .refl s
  | cons a rest ih => exact (h a s).trans (ih _)

/-! ## Without a frame -/

/-- What stands while no frame runs (R4, R6, R56, R64, R70). -/
structure State.Unframed (s : State) : Prop where
  records : s.port.fifo = [] ∧ s.port.pendingGap = none ∧ s.port.openSeg = none ∧ s.port.resync = false
  hits : s.pen.pulse = none ∧ s.pen.waiting = [] ∧ s.hist.isOpen = false

theorem Framed.unframed (h : Framed s t) (hs : s.Unframed) : t.Unframed := by
  obtain ⟨hrecords, hhits⟩ := hs
  exact ⟨by rw [h.port]; exact hrecords, by rw [h.pulse, h.waiting, h.hist]; exact hhits⟩

/-- The end of a frame whose FIFO has been emptied leaves none of it, and the mode to its caller (R56, R64, R79). -/
theorem frameEnds_leaves (endTime : Nat) (o : FrameEndOrder) (hf : s.port.fifo = []) (hr : s.hist.Stroked) :
    (s.frameEnds endTime o).Unframed ∧ (s.frameEnds endTime o).port.mode = s.port.mode ∧
      (s.frameEnds endTime o).hist.Stroked := by
  have hp : s.discardPulse.port = s.port ∧ s.discardPulse.pen.pulse = none ∧ s.discardPulse.hist = s.hist := by
    rw [discardPulse_eq]
    split
    · exact ⟨rfl, ‹_›, rfl⟩
    · exact ⟨rfl, rfl, rfl⟩
  obtain ⟨hport, hpulse, hhist⟩ := hp
  have hclosed : (s.discardPulse.closeHistory endTime).port =
      { s.port with pendingGap := none, resync := false, openSeg := none } := by rw [← hport]; rfl
  obtain ⟨hcorr, hwaiting⟩ := correlateWaiting_correlated _ (s.discardPulse.closeHistory endTime) rfl
  have hhits : (s.discardPulse.closeHistory endTime).frameHits.Unframed :=
    ⟨by rw [show State.port (State.frameHits _) = _ from hcorr.port, hclosed]; exact ⟨hf, rfl, rfl, rfl⟩,
      by rw [show State.pen (State.frameHits _) = _ from hcorr.pen]; exact hpulse, hwaiting,
      by rw [show State.hist (State.frameHits _) = _ from hcorr.hist]; rfl⟩
  have htasks := foldl_framed runFrameEndTask_framed (endTasks o) (s.discardPulse.closeHistory endTime).frameHits
  refine ⟨?_, ?_, ?_⟩
  · obtain ⟨hrecords, hhits'⟩ := htasks.unframed hhits
    exact ⟨hrecords, hhits'⟩
  · calc (s.frameEnds endTime o).port.mode = (s.discardPulse.closeHistory endTime).frameHits.port.mode :=
          congrArg Port.mode htasks.port
      _ = (s.discardPulse.closeHistory endTime).port.mode := congrArg Port.mode hcorr.port
      _ = s.port.mode := by rw [hclosed]
  · rw [show State.hist (State.frameEnds _ _ _) = _ from htasks.hist, show State.hist (State.frameHits _) = _ from hcorr.hist]
    exact frameEnd_stroked endTime _ (hhist ▸ hr)

theorem historyTakes_leaves (e : FifoEntry) (hr : s.hist.Stroked) :
    (s.historyTakes e).port = s.port ∧ (s.historyTakes e).hist.Stroked := by
  have htaken := takeEntry_stroked e hr
  unfold State.historyTakes
  dsimp only
  split
  · exact ⟨rfl, htaken⟩
  · have hcorr := releaseTest_correlated
    refine ⟨(hcorr _).port, ?_⟩
    rw [(hcorr _).hist]
    exact htaken

theorem handOldest_leaves (hr : s.hist.Stroked) : s.handOldest.port.mode = s.port.mode ∧ s.handOldest.hist.Stroked := by
  unfold State.handOldest
  split
  · exact ⟨rfl, hr⟩
  · rename_i e rest _
    have htaken := fun p : Port => historyTakes_leaves (s := { s with port := p }) e hr
    exact ⟨(congrArg Port.mode (htaken _).1).trans rfl, (htaken _).2⟩

/-- The emptying of the FIFO leaves the port in its mode, and the strokes of the ring (R4). -/
theorem flushFifo_leaves (hr : s.hist.Stroked) :
    s.flushFifo.port.fifo = [] ∧ s.flushFifo.port.mode = s.port.mode ∧ s.flushFifo.hist.Stroked := by
  induction hl : s.port.fifo generalizing s with
  | nil => rw [flushFifo_nil hl]; exact ⟨hl, rfl, hr⟩
  | cons e rest ih =>
    obtain ⟨hmode, hr'⟩ := handOldest_leaves hr
    obtain ⟨hfifo, hmode', hr''⟩ := ih hr' (handOldest_fifo hl)
    rw [flushFifo_cons hl]
    exact ⟨hfifo, hmode'.trans hmode, hr''⟩

theorem dropAnswers_posted (s : State) : Posted { s with port := { s.port with answers := [] } } s.dropAnswers := by
  unfold State.dropAnswers
  split
  · rename_i h
    have hnil : { s with port := { s.port with answers := [] } } = s := by rw [← List.isEmpty_iff.1 h]
    rw [hnil]
    exact .refl s
  · exact setFlag_posted _ _

theorem dropAnswers_port (s : State) : s.dropAnswers.port = { s.port with answers := [] } := (dropAnswers_posted s).port

theorem boundary_leaves (hr : s.hist.Stroked) :
    s.boundary.port.fifo = [] ∧ s.boundary.port.mode = s.port.mode ∧ s.boundary.hist.Stroked := by
  obtain ⟨hfifo, hmode, hr'⟩ := flushFifo_leaves hr
  have hdrop := dropAnswers_posted s.flushFifo
  exact ⟨(congrArg Port.fifo hdrop.port).trans hfifo, (congrArg Port.mode hdrop.port).trans hmode,
    by rw [show State.hist (State.boundary s) = _ from hdrop.hist]; exact hr'⟩

/-! ## The entry into DARK (R15) -/

/-- What the entry into DARK reaches task by task (R15, R40, R105, R136). -/
def DarkTask.reaches : DarkTask → State → Prop
  | .directory, s => s.dir.changes = [] ∧ s.dir.sweeps = .none
  | .resolver, s => s.res.attempt = .idle ∨ s.res.attempt = .held
  | .menu, s => s.menu.current = s.menu.next ∧ s.menu.sums = [] ∧ s.menu.leading = none ∧ s.menu.dwellCount = 0

theorem withdraw_attempt (r : Resolver) (segs : List Nat) (start : Bool) : (r.withdraw segs start).attempt = r.attempt := rfl

/-- An attempt lost while DARK leaves none (R105). -/
theorem loseAttempt_dark (reason : PickReason) (h : s.port.mode = .dark) :
    (s.loseAttempt reason).res.attempt = .idle ∨ (s.loseAttempt reason).res.attempt = .held := by
  have hlost : (s.lostOutcome reason).port.mode = .dark := by rw [(lostOutcome_resolved s reason).port]; exact h
  unfold State.loseAttempt
  split
  · exact afterOutcome_dark _ hlost
  · exact afterOutcome_dark _ hlost
  · exact .inl ‹_›
  · exact .inr ‹_›

theorem menuDark_menu (s : State) : DarkTask.menu.reaches s.menuDark := by
  have hcopy : s.copyStack.menu.current = s.copyStack.menu.next := by rw [copyStack_menu]
  exact ⟨hcopy, rfl, rfl, rfl⟩

/-- A withdrawn set finds no dwell state to clear (R144). -/
theorem withdraw_menu_reached {m : Menu} (segs : List Nat)
    (h : m.current = m.next ∧ m.sums = [] ∧ m.leading = none ∧ m.dwellCount = 0) :
    (m.withdraw segs).current = (m.withdraw segs).next ∧ (m.withdraw segs).sums = [] ∧ (m.withdraw segs).leading = none ∧
      (m.withdraw segs).dwellCount = 0 := by
  obtain ⟨hcurrent, hsums, hleading, hcount⟩ := h
  simp only [Menu.withdraw, hcurrent, hsums, hleading, hcount, ite_self, and_self]

/-- A task reaches what it is to reach while the port is DARK. -/
theorem runDarkTask_reaches (task : DarkTask) (h : s.port.mode = .dark) : task.reaches (runDarkTask task s) := by
  cases task with
  | directory => exact (applyStaged_directed s).2
  | resolver => exact loseAttempt_dark .noFrames h
  | menu => exact menuDark_menu s

/-- A task keeps what another has reached. -/
theorem runDarkTask_keeps (task other : DarkTask) (h : s.port.mode = .dark) (hr : other.reaches s) :
    other.reaches (runDarkTask task s) := by
  cases task with
  | directory =>
    obtain ⟨hdirected, hlists⟩ := applyStaged_directed s
    cases other with
    | directory => exact hlists
    | resolver =>
      show s.applyStaged.res.attempt = _ ∨ s.applyStaged.res.attempt = _
      rw [hdirected.res]
      exact hr
    | menu =>
      refine withdraw_menu_reached _ ?_
      rw [hdirected.menu]
      exact hr
  | resolver =>
    have hlose := loseAttempt_resolved s .noFrames
    cases other with
    | directory =>
      show (s.loseAttempt .noFrames).dir.changes = [] ∧ (s.loseAttempt .noFrames).dir.sweeps = .none
      rw [hlose.dir]
      exact hr
    | resolver => exact loseAttempt_dark .noFrames h
    | menu =>
      obtain ⟨hcurrent, hsums, hleading, hcount⟩ := hr
      have hmenu := hlose.menuSame
      exact ⟨hlose.dark h hcurrent, (congrArg Menu.sums hmenu).trans hsums, (congrArg Menu.leading hmenu).trans hleading,
        (congrArg Menu.dwellCount hmenu).trans hcount⟩
  | menu =>
    have hcopy := copyStack_posted s
    cases other with
    | directory =>
      show s.copyStack.dir.changes = [] ∧ s.copyStack.dir.sweeps = .none
      rw [hcopy.dir]
      exact hr
    | resolver =>
      show s.copyStack.res.attempt = _ ∨ s.copyStack.res.attempt = _
      rw [hcopy.res]
      exact hr
    | menu => exact menuDark_menu s

theorem foldl_darkTasks_reaches (tasks : List DarkTask) (h : s.port.mode = .dark) {task : DarkTask}
    (ht : task ∈ tasks ∨ task.reaches s) : task.reaches (tasks.foldl (fun t a => runDarkTask a t) s) := by
  induction tasks generalizing s with
  | nil => exact ht.resolve_left List.not_mem_nil
  | cons a rest ih =>
    have hmode : (runDarkTask a s).port.mode = .dark := by rw [(runDarkTask_framed a s).port]; exact h
    refine ih hmode ?_
    obtain ht | ht := ht
    · obtain rfl | ht := List.mem_cons.1 ht
      · exact .inr (runDarkTask_reaches task h)
      · exact .inl ht
    · exact .inr (runDarkTask_keeps a task h ht)

theorem mem_darkTasks (o : DarkOrder) (task : DarkTask) : task ∈ darkTasks o := by
  rw [(darkTasks_perm o).mem_iff]
  cases task <;> decide

theorem enterDark_coherent (o : DarkOrder) (hs : s.Unframed) (hr : s.hist.Stroked) : (s.enterDark o).Coherent := by
  have hflag := setFlag_framed { s with port := { s.port with mode := .dark, absence := 0 } } .dark
  have hframed := hflag.trans (foldl_framed runDarkTask_framed (darkTasks o) _)
  have hdark := congrArg Port.mode hflag.port
  have hport : (s.enterDark o).port = { s.port with mode := .dark, absence := 0 } := hframed.port
  have hun : (s.enterDark o).Unframed := hframed.unframed ⟨hs.records, hs.hits⟩
  exact
    { noRecords := fun _ => hun.records
      noHits := fun _ => hun.hits
      nothingStaged := fun _ => foldl_darkTasks_reaches (darkTasks o) hdark (task := .directory) (.inl (mem_darkTasks o _))
      noAbsence := fun _ => by rw [hport]
      onePage := fun _ => (foldl_darkTasks_reaches (darkTasks o) hdark (task := .menu) (.inl (mem_darkTasks o _))).1
      noAttempt := fun _ => foldl_darkTasks_reaches (darkTasks o) hdark (task := .resolver) (.inl (mem_darkTasks o _))
      strokes := by rw [show (s.enterDark o).hist = s.hist from hframed.hist]; exact hr }

/-! ## The stroke port -/

theorem coherent_of_inFrame (h : t.port.mode = .inFrame) (hr : t.hist.Stroked) : t.Coherent where
  noRecords := fun hn => absurd h hn
  noHits := fun hn => absurd h hn
  nothingStaged := fun hd => nomatch h.symm.trans hd
  noAbsence := fun hd => nomatch h.symm.trans hd
  onePage := fun hd => nomatch h.symm.trans hd
  noAttempt := fun hd => nomatch h.symm.trans hd
  strokes := hr

theorem State.Coherent.unframed (c : s.Coherent) (h : s.port.mode ≠ .inFrame) : s.Unframed := ⟨c.noRecords h, c.noHits h⟩

/-- The correlation of hits, and with it every outcome and notice, keeps the port's state if it leaves no attempt while DARK. -/
theorem Correlated.coherent (h : Correlated s t)
    (ha : s.port.mode = .dark → t.res.attempt = .idle ∨ t.res.attempt = .held) (c : s.Coherent) : t.Coherent where
  noRecords := by rw [h.port]; exact c.noRecords
  noHits := fun hm => by
    rw [h.port] at hm
    obtain ⟨hpulse, hwaiting, hopen⟩ := c.noHits hm
    have hlength := h.waiting
    rw [hwaiting] at hlength
    have hnone : t.pen.waiting = [] := List.length_eq_zero_iff.1 (Nat.le_zero.1 hlength)
    exact ⟨by rw [h.pen]; exact hpulse, hnone, by rw [h.hist]; exact hopen⟩
  nothingStaged := by rw [h.port, h.dir]; exact c.nothingStaged
  noAbsence := by rw [h.port]; exact c.noAbsence
  onePage := fun hm => by
    rw [h.port] at hm
    exact h.dark hm (c.onePage hm)
  noAttempt := by rw [h.port]; exact ha
  strokes := by rw [h.hist]; exact c.strokes

theorem Posted.coherent (h : Posted s t) (c : s.Coherent) : t.Coherent :=
  h.resolved.correlated.coherent (fun hm => by rw [h.res]; exact c.noAttempt hm) c

theorem setFlag_coherent (f : ConditionFlag) (c : s.Coherent) : (s.setFlag f).Coherent := (setFlag_posted s f).coherent c

theorem dropAnswers_coherent (c : s.Coherent) : s.dropAnswers.Coherent := (dropAnswers_posted s).coherent { c with }

/-- The port is in its mode, and the ring holds strokes. -/
structure State.Running (s : State) : Prop where
  mode : s.port.mode = .inFrame
  strokes : s.hist.Stroked

theorem State.Running.coherent (h : s.Running) : s.Coherent := coherent_of_inFrame h.mode h.strokes

theorem Posted.running (h : Posted s t) (hs : s.Running) : t.Running :=
  ⟨by rw [h.port]; exact hs.mode, by rw [h.hist]; exact hs.strokes⟩

theorem running_of_port {p : Port} (hm : p.mode = .inFrame) (hr : s.hist.Stroked) : State.Running { s with port := p } :=
  ⟨hm, hr⟩

theorem State.Running.answer (h : s.Running) (words : List Word) : (s.answer words).Running := ⟨h.mode, h.strokes⟩

theorem State.Running.count (h : s.Running) (c : Counter) : (s.count c).Running := ⟨h.mode, h.strokes⟩

theorem State.Running.setFlag (h : s.Running) (f : ConditionFlag) : (s.setFlag f).Running := (setFlag_posted s f).running h

theorem enqueue_running (r : QueuedRecord) (stamp : Nat) (hs : s.Running) : (s.enqueue r stamp).Running := by
  unfold State.enqueue
  split
  · exact running_of_port hs.mode hs.strokes
  · refine State.Running.count (State.Running.setFlag ?_ .intakeDrop) _
    exact running_of_port hs.mode hs.strokes

theorem segmentOpens_coherent (seg stamp : Nat) (c : s.Coherent) : (s.segmentOpens seg stamp).Coherent := by
  have hdrop := dropAnswers_coherent c
  unfold State.segmentOpens
  dsimp only
  split
  · rename_i hm
    have hrun : s.dropAnswers.Running := ⟨hm, hdrop.strokes⟩
    refine ((enqueue_running _ _ ?_).answer _).coherent
    split
    · exact running_of_port (hrun.setFlag _).mode (hrun.setFlag _).strokes
    · exact running_of_port hm hrun.strokes
  · exact { setFlag_coherent _ hdrop with }

theorem segmentCloses_coherent (stamp : Nat) (c : s.Coherent) : (s.segmentCloses stamp).Coherent := by
  have hdrop := dropAnswers_coherent c
  unfold State.segmentCloses
  dsimp only
  split
  · rename_i h
    refine (enqueue_running _ _ ?_).coherent
    exact running_of_port h.1 hdrop.strokes
  · exact setFlag_coherent _ hdrop

theorem vectorArrives_coherent (beam : Bool) (p : Stroke) (stamp : Nat) (c : s.Coherent) :
    (s.vectorArrives beam p stamp).Coherent := by
  have hdrop := dropAnswers_coherent c
  unfold State.vectorArrives
  dsimp only
  split
  · rename_i hm
    exact ((enqueue_running _ _ ⟨hm, hdrop.strokes⟩).count _).coherent
  · exact setFlag_coherent _ hdrop

theorem frameOpens_coherent (seq : Byte) (e : FrameEndOrder) (o : FrameStartOrder) : (s.frameOpens seq e o).Coherent := by
  have hwork := startWork_framed ((s.boundary.truncate e).beginFrame seq) o
  refine coherent_of_inFrame (congrArg Port.mode hwork.port) ?_
  rw [show (s.frameOpens seq e o).hist = _ from hwork.hist]
  exact fun r hr => nomatch hr

theorem frameCloses_coherent (o : FrameEndOrder) (c : s.Coherent) : (s.frameCloses o).Coherent := by
  have hbetween : ∀ {u : State} (time : Nat), u.port.fifo = [] → u.hist.Stroked →
      ((u.frameEnds time o).enterMode .between).Coherent := fun {u} time hfifo hr => by
    obtain ⟨hun, -, hr'⟩ := frameEnds_leaves time o hfifo hr
    exact
      { noRecords := fun _ => hun.records, noHits := fun _ => hun.hits, nothingStaged := fun hd => (nomatch hd)
        noAbsence := fun hd => (nomatch hd), onePage := fun hd => (nomatch hd), noAttempt := fun hd => (nomatch hd)
        strokes := hr' }
  obtain ⟨hfifo, hmode, hr⟩ := boundary_leaves (s := s) c.strokes
  unfold State.frameCloses
  dsimp only
  split
  · split
    · have hflag := setFlag_posted s.boundary .portProtocol
      exact hbetween _ (by rw [hflag.port]; exact hfifo) (by rw [hflag.hist]; exact hr)
    · exact hbetween _ hfifo hr
  · rename_i hm
    have hidle : s.flushFifo = s := flushFifo_nil (c.noRecords (hmode ▸ hm)).1
    have hb : s.boundary.Coherent := by
      unfold State.boundary
      rw [hidle]
      exact dropAnswers_coherent c
    exact setFlag_coherent _ hb

theorem takeOldest_coherent (c : s.Coherent) : s.takeOldest.Coherent := by
  unfold State.takeOldest
  split
  · exact c
  · rename_i hne
    have hm : s.port.mode = .inFrame := by
      refine Classical.byContradiction fun hm => ?_
      exact hne (by rw [(c.noRecords hm).1]; rfl)
    obtain ⟨hmode, hr⟩ := handOldest_leaves (s := s) c.strokes
    exact coherent_of_inFrame (hmode.trans hm) hr

theorem absenceExpires_coherent (e : FrameEndOrder) (o : DarkOrder) (c : s.Coherent) : (s.absenceExpires e o).Coherent := by
  unfold State.absenceExpires
  split
  · exact c
  · rename_i hm
    exact enterDark_coherent o (c.unframed (by rw [hm]; exact fun h => nomatch h)) c.strokes
  · obtain ⟨hfifo, -, hr⟩ := flushFifo_leaves (s := s) c.strokes
    obtain ⟨hun, -, hr'⟩ := frameEnds_leaves s.flushFifo.port.frameTime e hfifo hr
    exact enterDark_coherent o hun hr'

theorem readAnswer_coherent (c : s.Coherent) : s.readAnswer.Coherent := by
  unfold State.readAnswer
  split
  · exact { c with }
  · exact setFlag_coherent _ { c with }

theorem abandonRecord_coherent (c : s.Coherent) : s.abandonRecord.Coherent := by
  unfold State.abandonRecord
  split
  · exact setFlag_coherent _ { c with }
  · exact c

/-! ## The pen -/

theorem leadingEdge_coherent (enable : Bool) (c : s.Coherent) : (s.leadingEdge enable).Coherent := by
  unfold State.leadingEdge
  dsimp only
  split
  · exact c
  · split
    · exact { c with }
    · rename_i hadmits
      split
      · exact { c with }
      · refine coherent_of_inFrame ?_ c.strokes
        simp only [State.admits, Bool.not_eq_true', Bool.not_eq_false, Bool.and_eq_true, beq_iff_eq] at hadmits
        exact hadmits.1.1

theorem pulseReleased_coherent (c : s.Coherent) : s.pulseReleased.Coherent := by
  have hnone : ∀ hm : s.port.mode ≠ .inFrame, none = (none : Option Pulse) ∧ s.pen.waiting = [] ∧ s.hist.isOpen = false :=
    fun hm => ⟨rfl, (c.noHits hm).2⟩
  unfold State.pulseReleased
  dsimp only
  split
  · exact c
  · split
    · exact { c with noHits := hnone }
    · exact { c with noHits := hnone }

theorem qualify_coherent (c : s.Coherent) : s.qualify.Coherent := by
  unfold State.qualify
  split
  · exact c
  · rename_i p hp
    have hm : s.port.mode = .inFrame := by
      refine Classical.byContradiction fun hm => ?_
      exact nomatch hp.symm.trans (c.noHits hm).1
    unfold State.floodTest State.joinWaiting
    split
    · split
      · have hrelease := releaseTest_correlated
        refine coherent_of_inFrame ?_ ?_
        · rw [(hrelease _).port]
          exact hm
        · rw [(hrelease _).hist]
          exact c.strokes
      · exact coherent_of_inFrame hm c.strokes
    · exact coherent_of_inFrame hm c.strokes

theorem tipDown_dark (h : s.port.mode = .dark) (ha : s.res.attempt = .idle ∨ s.res.attempt = .held) :
    s.tipDown.res.attempt = .idle ∨ s.tipDown.res.attempt = .held := by
  unfold State.tipDown
  split
  · unfold State.tipDownIdle
    split
    · exact ha
    · dsimp only
      split
      · exact .inr rfl
      · exact .inl rfl
  · exact ha
  · exact ha
  · exact ha

theorem tipUp_dark (ha : s.res.attempt = .idle ∨ s.res.attempt = .held) :
    s.tipUp.res.attempt = .idle ∨ s.tipUp.res.attempt = .held := by
  unfold State.tipUp
  obtain ha | ha := ha <;> rw [ha]
  · exact .inl ha
  · exact .inl rfl

theorem debounce_coherent (c : s.Coherent) : s.debounce.Coherent := by
  have hlevel : State.Coherent { s with pen := { s.pen with tipDebounced := s.pen.tipRaw, tipTimer := none } } := { c with }
  unfold State.debounce
  dsimp only
  split
  · exact (tipDown_resolved _).correlated.coherent (fun hm => tipDown_dark hm (c.noAttempt hm)) hlevel
  · exact (tipUp_resolved _).correlated.coherent (fun hm => tipUp_dark (c.noAttempt hm)) hlevel
  · exact hlevel
  · exact hlevel

theorem recheckDebounce_coherent (c : s.Coherent) : s.recheckDebounce.Coherent := by
  unfold State.recheckDebounce
  split
  · split
    · exact debounce_coherent c
    · exact c
  · exact c

theorem tipShows_coherent (level : TipLevel) (c : s.Coherent) : (s.tipShows level).Coherent := by
  unfold State.tipShows
  split
  · exact c
  · exact { c with }

/-! ## The work of commands -/

theorem setUnit_coherent (n : Link) (x : LinkUnit) (c : s.Coherent) : (s.setUnit n x).Coherent where
  noRecords := by rw [setUnit_port]; exact c.noRecords
  noHits := by rw [setUnit_port, setUnit_pen, setUnit_hist]; exact c.noHits
  nothingStaged := by rw [setUnit_port, setUnit_dir]; exact c.nothingStaged
  noAbsence := by rw [setUnit_port]; exact c.noAbsence
  onePage := by rw [setUnit_port, setUnit_menu]; exact c.onePage
  noAttempt := by rw [setUnit_port, setUnit_res]; exact c.noAttempt
  strokes := by rw [setUnit_hist]; exact c.strokes

theorem Directed.coherent (h : Directed s t) (c : s.Coherent) : t.Coherent where
  noRecords := by rw [h.port]; exact c.noRecords
  noHits := by rw [h.port, h.pen, h.hist]; exact c.noHits
  nothingStaged := fun hm => by
    rw [h.port] at hm
    obtain ⟨hchanges, hsweeps⟩ := c.nothingStaged hm
    exact ⟨h.changes.elim (·.trans hchanges) id, h.sweeps.elim (·.trans hsweeps) id⟩
  noAbsence := by rw [h.port]; exact c.noAbsence
  onePage := by rw [h.port, h.menu]; exact c.onePage
  noAttempt := by rw [h.port, h.res]; exact c.noAttempt
  strokes := by rw [h.hist]; exact c.strokes

theorem handWithdrawn_coherent (start : Bool) (c : s.Coherent) : (s.handWithdrawn start).Coherent := { c with }

theorem takeChange_coherent (n : Link) (op : ChangeOp) (clamped : Bool) (c : s.Coherent) :
    (s.takeChange n op clamped).1.Coherent := by
  unfold State.takeChange
  split
  · exact c
  · dsimp only
    split
    · exact handWithdrawn_coherent false ((applyChange_directed _ _).coherent { c with })
    · rename_i hm
      split
      · exact c
      · exact { c with nothingStaged := fun hd => absurd hd hm }

theorem ChangeWork.coherent {n : Link} {w : State × Reply} (h : ChangeWork n s w) (c : s.Coherent) : w.1.Coherent := by
  obtain he | ⟨op, clamped, -, -, rfl⟩ := h
  · exact he ▸ c
  · exact takeChange_coherent n op clamped c

theorem releaseTest_coherent (c : s.Coherent) : s.releaseTest.Coherent := by
  have hcorr := releaseTest_correlated s
  by_cases hm : s.port.mode = .inFrame
  · exact coherent_of_inFrame (by rw [hcorr.port]; exact hm) (by rw [hcorr.hist]; exact c.strokes)
  · have hnone : s.releaseTest = s := by
      unfold State.releaseTest
      rw [(c.noHits hm).2.1]
      rfl
    rw [hnone]
    exact c

theorem stackOp_coherent (op : StackOp) (c : s.Coherent) : (s.stackOp op).Coherent := by
  refine (stackOp_resolved s op).correlated.coherent (fun hm => ?_) c
  rw [(stackOp_posted s op).res]
  exact c.noAttempt hm

theorem setMode_coherent (m : PickMode) (owner : LinkSet) (c : s.Coherent) : (s.setMode m owner).Coherent :=
  (post_posted _ _ _).coherent { c with }

theorem loseAttempt_coherent (reason : PickReason) (c : s.Coherent) : (s.loseAttempt reason).Coherent :=
  (loseAttempt_resolved s reason).correlated.coherent (loseAttempt_dark reason) c

theorem resetLinkDirectory_coherent (n : Link) (c : s.Coherent) : (s.resetLinkDirectory n).Coherent := by
  have hstaged : s.port.mode = .dark →
      s.dir.changes.filter (fun x => x.issuer != n) = [] ∧ s.dir.sweeps = .none := fun hd => by
    rw [(c.nothingStaged hd).1]
    exact ⟨rfl, (c.nothingStaged hd).2⟩
  unfold State.resetLinkDirectory
  dsimp only
  split
  · exact handWithdrawn_coherent false ((applySweep_directed _ n).coherent { c with nothingStaged := hstaged })
  · rename_i hm
    exact { c with nothingStaged := fun hd => absurd hd hm }

theorem resetLink_coherent (n : Link) (c : s.Coherent) : (s.resetLink n).Coherent := by
  have hdir := resetLinkDirectory_coherent n (setUnit_coherent n (s.unit n).flushed c)
  have hdrop : (((s.setUnit n (s.unit n).flushed).resetLinkDirectory n).dropFiltersOf n).Coherent := by
    unfold State.dropFiltersOf
    dsimp only
    split
    · exact hdir
    · exact { hdir with }
  unfold State.resetLink State.revertMode
  split
  · exact setMode_coherent _ _ hdrop
  · exact hdrop

theorem noticeMaskWork_coherent (n : Link) (classes : Byte) (c : s.Coherent) : (noticeMaskWork n classes s).1.Coherent := by
  have hmask := setUnit_coherent n { s.unit n with mask := classes.extractLsb' 0 7 } c
  unfold noticeMaskWork
  split
  · exact c
  · dsimp only
    split
    · exact (post_posted _ _ _).coherent hmask
    · exact hmask

theorem penParamsWork_coherent (n : Link) (a : PenParamsArgs) (c : s.Coherent) : (penParamsWork n a s).1.Coherent := by
  refine (postSettings_posted _ _ _ _).coherent ?_
  split
  · exact { c with }
  · exact recheckDebounce_coherent { c with }

theorem setCross_coherent (x : Cross) (c : s.Coherent) : (s.setCross x).Coherent := (setCross_posted s x).coherent { c with }

theorem portParamsWork_coherent (n : Link) (a : PortParamsArgs) (c : s.Coherent) : (portParamsWork n a s).1.Coherent :=
  (postSettings_posted _ _ _ _).coherent { c with noAbsence := fun _ => rfl }

theorem afterReset_coherent (s : State) (cause : RestartCause) (rate : LineRate) (tip : TipLevel) (line enable : Bool) :
    (s.afterReset cause rate (penAfterReset tip line enable)).Coherent where
  noRecords := fun _ => ⟨rfl, rfl, rfl, rfl⟩
  noHits := fun _ => ⟨rfl, rfl, rfl⟩
  nothingStaged := fun _ => ⟨rfl, rfl⟩
  noAbsence := fun _ => rfl
  onePage := fun _ => rfl
  noAttempt := fun _ => .inl rfl
  strokes := fun _ hr => nomatch hr

/-- The work of a command keeps what the port state rules out. -/
theorem commandWork_coherent (n : Link) (cmd : LinkCmd) (c : s.Coherent) : (commandWork n cmd s).1.Coherent := by
  cases cmd with
  | segDefine a => exact (segDefineWork_change a).coherent c
  | segSet a => exact (segSetWork_change a).coherent c
  | segShare seg => exact (segShareWork_change seg).coherent c
  | segRelease seg => exact (segReleaseWork_change seg).coherent c
  | segMenu a => exact (segMenuWork_change a).coherent c
  | viewSet a => exact (viewSetWork_change a).coherent c
  | segQuery seg => dsimp only [commandWork, segQueryWork]; split <;> exact c
  | echoSet e style =>
    dsimp only [commandWork, echoSetWork]
    split
    · exact c
    · exact (postSettings_posted _ _ _ _).coherent { c with }
  | filterInsert a =>
    dsimp only [commandWork, filterInsertWork]
    repeat' split
    all_goals exact { c with }
  | filterDelete index =>
    dsimp only [commandWork, filterDeleteWork]
    repeat' split
    all_goals exact { c with }
  | filterEnable index enabled =>
    dsimp only [commandWork, filterEnableWork]
    repeat' split
    all_goals exact { c with }
  | pagePush page =>
    dsimp only [commandWork, pagePushWork]
    split
    · exact c
    · exact stackOp_coherent _ c
  | pageBack | pageHome => exact stackOp_coherent _ c
  | dwellSet _ | crossParams _ _ | snapSet _ => exact (postSettings_posted _ _ _ _).coherent { c with }
  | portParams a => exact portParamsWork_coherent n a c
  | crossPlace x y => exact setCross_coherent _ c
  | crossPark => exact setCross_coherent _ c
  | penParams a => exact penParamsWork_coherent n a c
  | penResume => exact { c with }
  | pickParams a => exact (postSettings_posted _ _ _ _).coherent (releaseTest_coherent { c with })
  | modeSet mode =>
    dsimp only [commandWork, modeSetWork]
    split
    · exact c
    · exact setMode_coherent _ _ c
  | pickCancel =>
    dsimp only [commandWork, pickCancelWork]
    split
    · exact loseAttempt_coherent _ c
    · exact loseAttempt_coherent _ c
    · exact c
    · exact c
  | noticeMask classes => exact noticeMaskWork_coherent n classes c
  | flagsClear flags =>
    dsimp only [commandWork, flagsClearWork]
    split
    · exact c
    · exact { c with }
  | statsRead clear =>
    dsimp only [commandWork, statsReadWork]
    split
    · exact { c with }
    · exact c
  | linkReset link =>
    dsimp only [commandWork, linkResetWork]
    split
    · exact c
    · exact resetLink_coherent _ c
  | partReset => exact afterReset_coherent s _ _ _ _ _
  | filterRead _ | crossRead | statusRead | ident => exact c

/-! ## Every event -/

theorem coherent_keptByWork : KeptByWork State.Coherent where
  unit := fun _ n x _ _ c => setUnit_coherent n x c
  flag := fun _ f c => setFlag_coherent f c
  work := fun _ n cmd c => commandWork_coherent n cmd c

theorem elapse_coherent (d : Nat) (c : s.Coherent) : (s.elapse d).Coherent := by
  have hport : (s.port.age d).mode = s.port.mode ∧ (s.port.mode = .dark → s.port.age d = s.port) ∧
      (s.port.age d).fifo = s.port.fifo ∧ (s.port.age d).pendingGap = s.port.pendingGap ∧
        (s.port.age d).openSeg = s.port.openSeg ∧ (s.port.age d).resync = s.port.resync := by
    unfold Port.age
    cases hm : s.port.mode with
    | dark => exact ⟨hm, fun _ => rfl, rfl, rfl, rfl, rfl⟩
    | inFrame => exact ⟨rfl, fun hd => (nomatch hd), rfl, rfl, rfl, rfl⟩
    | between => exact ⟨rfl, fun hd => (nomatch hd), rfl, rfl, rfl, rfl⟩
  obtain ⟨hmode, hdark, hfifo, hgap, hopen, hresync⟩ := hport
  exact
    { noRecords := fun hm => by
        show (s.port.age d).fifo = [] ∧ (s.port.age d).pendingGap = none ∧ (s.port.age d).openSeg = none ∧
          (s.port.age d).resync = false
        rw [hfifo, hgap, hopen, hresync]
        exact c.noRecords (fun h => hm (hmode.trans h))
      noHits := fun hm => by
        obtain ⟨hpulse, hrest⟩ := c.noHits (fun h => hm (hmode.trans h))
        exact ⟨congrArg (Option.map _) hpulse, hrest⟩
      nothingStaged := fun hd => c.nothingStaged (hmode.symm.trans hd)
      noAbsence := fun hd => by
        have hd' := hmode.symm.trans hd
        exact (congrArg Port.absence (hdark hd')).trans (c.noAbsence hd')
      onePage := fun hd => c.onePage (hmode.symm.trans hd)
      noAttempt := fun hd => c.noAttempt (hmode.symm.trans hd)
      strokes := c.strokes }

theorem event_coherent (s t : State) (h : Event s t) (c : s.Coherent) : t.Coherent := by
  cases h with
  | queue rest => exact { c with }
  | elapse d => exact elapse_coherent d c
  | abandon => exact abandonRecord_coherent c
  | begins v => exact { c with }
  | protocol => exact setFlag_coherent _ c
  | frameOpens seq e o => exact frameOpens_coherent seq e o
  | segmentOpens seg stamp => exact segmentOpens_coherent seg stamp c
  | segmentCloses stamp => exact segmentCloses_coherent stamp c
  | vectorArrives beam p stamp => exact vectorArrives_coherent beam p stamp c
  | frameCloses o => exact frameCloses_coherent o c
  | takeOldest => exact takeOldest_coherent c
  | absenceExpires e o => exact absenceExpires_coherent e o c
  | readAnswer => exact readAnswer_coherent c
  | leadingEdge enable => exact leadingEdge_coherent enable c
  | pulseReleased => exact pulseReleased_coherent c
  | qualify => exact qualify_coherent c
  | tipShows level => exact tipShows_coherent level c
  | debounce => exact debounce_coherent c
  | receives n rx => exact coherent_keptByWork.setReceiver n c rx
  | fails n reason => exact coherent_keptByWork.failFrame n c reason
  | completes n f => exact coherent_keptByWork.frameCompletes n c f
  | transmissionEnds n failFirst => exact coherent_keptByWork.transmissionEnds n c failFirst
  | resets cause rate tip line enable => exact afterReset_coherent s cause rate tip line enable

end Coherent

/-- Settles O6: a frame's end leaves nothing of it, the entry into DARK reaches its three tasks' ends in any order, and no other event
undoes them. -/
theorem stepKeepsPortCoherent : Obligations.StepKeepsPortCoherent := step_keeps event_coherent

/-- Settles O2. -/
theorem resetMeetsInvariants : Obligations.ResetMeetsInvariants := by
  have hreset : State.reset = State.reset.afterReset .powerOn .r9600 (penAfterReset .up false false) := rfl
  unfold Obligations.ResetMeetsInvariants
  rw [hreset]
  exact ⟨afterReset_bounded _ _ _ _ _ _, directoryFormed_ofStanding.reset _ _ _ _ _ _, afterReset_inRange _ _ _ _ _ _,
    afterReset_coherent _ _ _ _ _ _, afterReset_served _ _ _ _⟩

end Sys2Proof.Machine
end

section
/-! PROOFS. Notices, condition flags and the transmitter (R174 to R178; O15, O16, O17): an offer by the room in the queue, a post round by
round, and the statements. -/

namespace Sys2Proof.Machine

/-! ## An offer (R175, R176) -/

section Offer

variable {u : LinkUnit} {x : Notice}

theorem offer_of_masked (h : enables u.mask x = false) : u.offer x = (u, false) := by
  unfold LinkUnit.offer
  rw [h]
  rfl

theorem offer_of_room (h : enables u.mask x = true) (hq : u.queue.length < Config.noticeQueueSize) :
    u.offer x =
      (({ u with queue := u.queue ++ [{ notice := x, lossBefore := u.lossMark }], lossMark := false } : LinkUnit).kick,
        false) := by
  unfold LinkUnit.offer
  rw [h]
  exact (if_neg Bool.false_ne_true).trans (if_pos hq)

theorem offer_of_full (h : enables u.mask x = true) (hq : Config.noticeQueueSize ≤ u.queue.length) :
    u.offer x = ({ u with lossMark := true }, true) := by
  unfold LinkUnit.offer
  rw [h]
  exact (if_neg Bool.false_ne_true).trans (if_neg (Nat.not_lt.2 hq))

/-- A queue with room drops nothing. -/
theorem offer_kept (hq : u.queue.length < Config.noticeQueueSize) : (u.offer x).2 = false := by
  cases h : enables u.mask x with
  | false => rw [offer_of_masked h]
  | true => rw [offer_of_room h hq]

/-- A full queue whose loss is marked stands whatever is offered. -/
theorem offer_of_lost (hq : Config.noticeQueueSize ≤ u.queue.length) (hl : u.lossMark = true) : (u.offer x).1 = u := by
  cases h : enables u.mask x with
  | false => rw [offer_of_masked h]
  | true => rw [offer_of_full h hq, ← hl]

end Offer

/-! ## A post, round by round (R175, R178) -/

/-- A dropped notice made known: QUEUE_LOSS set if it was clear, with its CONDITION notice while rounds are left. -/
def State.noteLoss (fuel : Nat) (n : Link) (dropped : Bool) (t : State) : State :=
  if !dropped || flagSet t.flags (.queueLoss n) then t
  else
    match fuel with
    | 0 => { t with flags := withFlag t.flags (.queueLoss n) }
    | k + 1 =>
      State.postRounds k .both (.condition (withFlag t.flags (.queueLoss n)))
        { t with flags := withFlag t.flags (.queueLoss n) }

/-- A notice offered to a link if a set holds it. -/
def State.offerIf (s : State) (b : Bool) (n : Link) (x : Notice) : State × Bool := if b then s.offer n x else (s, false)

theorem postRounds_eq (fuel : Nat) (targets : LinkSet) (x : Notice) (s : State) :
    State.postRounds fuel targets x s =
      State.noteLoss fuel .link1 ((s.offerIf targets.l0 .link0 x).1.offerIf targets.l1 .link1 x).2
        (State.noteLoss fuel .link0 (s.offerIf targets.l0 .link0 x).2
          ((s.offerIf targets.l0 .link0 x).1.offerIf targets.l1 .link1 x).1) := by
  cases fuel <;> rfl

section Post

variable {s t : State} {n : Link} {x : Notice}

theorem noteLoss_of_kept (fuel : Nat) (n : Link) (t : State) : State.noteLoss fuel n false t = t := rfl

theorem noteLoss_of_known (fuel : Nat) (dropped : Bool) (h : flagSet t.flags (.queueLoss n) = true) :
    State.noteLoss fuel n dropped t = t := by
  unfold State.noteLoss
  rw [h, Bool.or_true]
  exact if_pos rfl

theorem noteLoss_of_new (fuel : Nat) (h : flagSet t.flags (.queueLoss n) = false) :
    State.noteLoss (fuel + 1) n true t =
      State.postRounds fuel .both (.condition (withFlag t.flags (.queueLoss n)))
        { t with flags := withFlag t.flags (.queueLoss n) } := by
  unfold State.noteLoss
  rw [h]
  rfl

theorem unit_offerIf (s : State) (b : Bool) (m k : Link) (x : Notice) :
    (s.offerIf b m x).1.unit k = if b = true ∧ k = m then ((s.unit m).offer x).1 else s.unit k := by
  cases b with
  | false => exact (if_neg (fun h => Bool.false_ne_true h.1)).symm
  | true =>
    show (s.setUnit m ((s.unit m).offer x).1).unit k = _
    rw [unit_setUnit]
    simp only [true_and]

theorem offerIf_kept {b : Bool} (h : (s.unit n).queue.length < Config.noticeQueueSize) : (s.offerIf b n x).2 = false := by
  cases b with
  | false => rfl
  | true => exact offer_kept h

theorem offerIf_flags (s : State) (b : Bool) (n : Link) (x : Notice) : (s.offerIf b n x).1.flags = s.flags := by
  cases b with
  | false => rfl
  | true => exact offer_flags s n x

/-- No offer can set QUEUE_LOSS: each link's queue has room, or its loss is known. -/
def State.Quiet (s : State) : Prop :=
  ∀ n, (s.unit n).queue.length < Config.noticeQueueSize ∨ flagSet s.flags (.queueLoss n) = true

/-- Then the rounds end after the first. -/
theorem postRounds_of_quiet (fuel : Nat) (targets : LinkSet) (h : s.Quiet) :
    State.postRounds fuel targets x s = ((s.offerIf targets.l0 .link0 x).1.offerIf targets.l1 .link1 x).1 := by
  have h0 : ∀ t : State, t.flags = s.flags → State.noteLoss fuel .link0 (s.offerIf targets.l0 .link0 x).2 t = t := by
    intro t ht
    rcases h .link0 with hr | hf
    · rw [offerIf_kept hr]
      exact noteLoss_of_kept _ _ _
    · exact noteLoss_of_known _ _ (ht.symm ▸ hf)
  have h1 : ∀ t : State, t.flags = s.flags →
      State.noteLoss fuel .link1 ((s.offerIf targets.l0 .link0 x).1.offerIf targets.l1 .link1 x).2 t = t := by
    intro t ht
    rcases h .link1 with hr | hf
    · have hroom : ((s.offerIf targets.l0 .link0 x).1.unit .link1).queue.length < Config.noticeQueueSize := by
        rw [unit_offerIf, if_neg (fun he => nomatch he.2)]
        exact hr
      rw [offerIf_kept hroom]
      exact noteLoss_of_kept _ _ _
    · exact noteLoss_of_known _ _ (ht.symm ▸ hf)
  have hflags : ((s.offerIf targets.l0 .link0 x).1.offerIf targets.l1 .link1 x).1.flags = s.flags := by
    rw [offerIf_flags, offerIf_flags]
  rw [postRounds_eq, h0 _ hflags, h1 _ hflags]

theorem Roomy.quiet (h : s.Roomy) : s.Quiet := fun n => .inl (h n)

/-- Where both queues have room, a notice is offered to the links of its set and changes nothing else (R175). -/
theorem post_of_roomy (targets : LinkSet) (h : s.Roomy) :
    s.post targets x =
      { s with
        links :=
          { s.links with
            u0 := if targets.l0 then (s.links.u0.offer x).1 else s.links.u0
            u1 := if targets.l1 then (s.links.u1.offer x).1 else s.links.u1 } } := by
  unfold State.post
  rw [postRounds_of_quiet 2 targets (Roomy.quiet h)]
  cases targets.l0 <;> cases targets.l1 <;> rfl

/-- The unit of a link whose queue is full and whose loss is marked. -/
structure State.LostAt (s : State) (n : Link) (u : LinkUnit) : Prop where
  unit : s.unit n = u
  full : Config.noticeQueueSize ≤ u.queue.length
  marked : u.lossMark = true

theorem State.LostAt.offerIf {u : LinkUnit} (h : s.LostAt n u) (b : Bool) (m : Link) : (s.offerIf b m x).1.LostAt n u := by
  obtain ⟨hu, hq, hl⟩ := h
  refine ⟨?_, hq, hl⟩
  rw [unit_offerIf]
  split
  next he =>
    rw [← he.2, hu]
    exact offer_of_lost hq hl
  next => exact hu

theorem State.LostAt.setFlags {u : LinkUnit} (h : s.LostAt n u) (flags : BitVec 11) : State.LostAt { s with flags := flags } n u := by
  refine ⟨?_, h.full, h.marked⟩
  cases n <;> exact h.unit

/-- Such a unit stands through any rounds. -/
theorem State.LostAt.postRounds {u : LinkUnit} (fuel : Nat) {targets : LinkSet} (h : s.LostAt n u) :
    (State.postRounds fuel targets x s).LostAt n u := by
  induction fuel generalizing targets x s with
  | zero =>
    have hnote : ∀ {t : State} (m : Link) (dropped : Bool), t.LostAt n u → (State.noteLoss 0 m dropped t).LostAt n u := by
      intro t m dropped ht
      unfold State.noteLoss
      split
      · exact ht
      · exact ht.setFlags _
    rw [postRounds_eq]
    exact hnote _ _ (hnote _ _ ((h.offerIf _ _).offerIf _ _))
  | succ k ih =>
    have hnote : ∀ {t : State} (m : Link) (dropped : Bool), t.LostAt n u → (State.noteLoss (k + 1) m dropped t).LostAt n u := by
      intro t m dropped ht
      unfold State.noteLoss
      split
      · exact ht
      · exact ih (ht.setFlags _)
    rw [postRounds_eq]
    exact hnote _ _ (hnote _ _ ((h.offerIf _ _).offerIf _ _))

/-- A notice for one link whose queue is full marks the loss there and makes it known (R175). -/
theorem post_single_of_full (h : enables (s.unit n).mask x = true) (hq : Config.noticeQueueSize ≤ (s.unit n).queue.length) :
    s.post (.single n) x = State.noteLoss 2 n true (s.setUnit n { s.unit n with lossMark := true }) := by
  have hoffer : s.offer n x = (s.setUnit n { s.unit n with lossMark := true }, true) := by
    unfold State.offer
    rw [offer_of_full h hq]
  unfold State.post
  rw [postRounds_eq]
  cases n with
  | link0 =>
    rw [show s.offerIf (LinkSet.single .link0).l0 .link0 x = s.offer .link0 x from rfl, hoffer]
    rfl
  | link1 =>
    rw [show (s.offerIf (LinkSet.single .link1).l0 .link0 x).1.offerIf (LinkSet.single .link1).l1 .link1 x
      = s.offer .link1 x from rfl, hoffer]
    rfl

/-- The other link is then told of the loss, if that is new and its queue has room (R178). -/
theorem noteLoss_told (fuel : Nat) {u : LinkUnit} (hn : s.LostAt n u) (hf : flagSet s.flags (.queueLoss n) = false)
    (hq : (s.unit (otherLink n)).queue.length < Config.noticeQueueSize) :
    (State.noteLoss (fuel + 1) n true s).unit (otherLink n) =
      ((s.unit (otherLink n)).offer (.condition (withFlag s.flags (.queueLoss n)))).1 := by
  have hquiet : State.Quiet { s with flags := withFlag s.flags (.queueLoss n) } := by
    intro m
    by_cases hm : m = n
    · exact .inr (hm ▸ flagSet_withFlag_self _ _)
    · have hne : m = otherLink n := by cases m <;> cases n <;> trivial
      exact .inl (by rw [hne]; cases n <;> exact hq)
  rw [noteLoss_of_new fuel hf, postRounds_of_quiet _ _ hquiet]
  cases n <;> rfl

theorem noteLoss_sets (fuel : Nat) : flagSet (State.noteLoss (fuel + 1) n true s).flags (.queueLoss n) = true := by
  cases h : flagSet s.flags (.queueLoss n) with
  | true => exact (noteLoss_of_known (fuel + 1) true h).symm ▸ h
  | false =>
    rw [noteLoss_of_new fuel h]
    exact (postRounds_posted _ _ _ _).flags _ (flagSet_withFlag_self _ _)

theorem setFlag_of_clear {f : ConditionFlag} (h : flagSet s.flags f = false) :
    s.setFlag f =
      State.post { s with flags := withFlag s.flags f } .both (.condition (withFlag s.flags f)) := by
  unfold State.setFlag
  rw [h]
  rfl

theorem State.LostAt.noteLoss {u : LinkUnit} (fuel : Nat) (h : s.LostAt n u) : (State.noteLoss (fuel + 1) n true s).LostAt n u := by
  cases hf : flagSet s.flags (.queueLoss n) with
  | true => exact (noteLoss_of_known (fuel + 1) true hf).symm ▸ h
  | false =>
    rw [noteLoss_of_new fuel hf]
    exact (h.setFlags _).postRounds _

end Post

/-! ## The statements -/

/-- Settles O17, by the transmitter's two questions: is it free, and what waits. -/
theorem transmitterSendsTheReplyFirst : Obligations.TransmitterSendsTheReplyFirst := fun _ =>
  ⟨LinkUnit.kick_of_blocked, fun hb ht =>
    ⟨fun _ hr => LinkUnit.kick_of_reply hb ht hr, fun hs =>
      ⟨fun _ _ hq => LinkUnit.kick_of_notice hb ht hs hq, LinkUnit.kick_of_nothing hs⟩⟩⟩

/-- Settles O16, by the room in the queue and, at a full one, by the rounds of the loss it makes known. -/
theorem noticeJoinsOrIsDropped : Obligations.NoticeJoinsOrIsDropped := by
  refine ⟨fun u x => ⟨offer_of_masked, offer_of_room⟩, fun s targets x => post_of_roomy targets, fun s n x hx hq => ?_⟩
  have hlost : (s.setUnit n { s.unit n with lossMark := true }).LostAt n { s.unit n with lossMark := true } :=
    ⟨unit_setUnit_same _ _ _, hq, rfl⟩
  have hother : (s.setUnit n { s.unit n with lossMark := true }).unit (otherLink n) = s.unit (otherLink n) :=
    unit_setUnit_otherLink _ _ _
  have hflags : (s.setUnit n { s.unit n with lossMark := true }).flags = s.flags := setUnit_flags _ _ _
  rw [post_single_of_full hx hq]
  refine ⟨(hlost.noteLoss 1).unit, noteLoss_sets 1, fun hf => ?_, fun hf hroom => ?_⟩
  · rw [noteLoss_of_known (t := s.setUnit n _) 2 true (hflags.symm ▸ hf)]
    exact hother
  · rw [noteLoss_told 1 hlost (hflags.symm ▸ hf) (hother.symm ▸ hroom), hother, hflags]
    rfl

/-- Settles O15, by the post of the CONDITION notice that a newly set flag gives. -/
theorem flagFromClearTellsBothLinks : Obligations.FlagFromClearTellsBothLinks := by
  intro s f
  refine ⟨fun h => if_pos h, fun h => ⟨setFlag_sets s f, (setFlag_posted s f).flags, fun g hg hloss => ?_, fun hroomy => ?_⟩⟩
  · rw [setFlag_of_clear h, post_flags_other _ _ _ g hloss]
    exact flagSet_withFlag_ne _ hg
  · rw [setFlag_of_clear h, post_of_roomy .both (s := { s with flags := withFlag s.flags f }) hroomy]
    rfl

end Sys2Proof.Machine
end

section
/-! PROOFS. The records that arrive at the stroke port, and the words that make them (R2 to R7, R11 to R13, R17; O18 to O22). -/

namespace Sys2Proof.Machine

/-! ## The segment answer (R17, R25, R46) -/

theorem segmentAnswer_eq (draw : Bool) (i : Fin 4) (h : Highlight) :
    segmentAnswer draw i h =
      BitVec.ofNat 16
        ((if draw then 0x8000 else 0) + i.val * 0x100 + (match h with | .none => 0 | .bright => 1 | .blink => 2 | .dash => 3)) := by
  cases h <;> rfl

/-- An entry's effective visibility (R25): a menu item bound to another page than the current one is not shown. -/
theorem effective_iff (e : Entry) (page : Fin 15) :
    e.effective page = true ↔
      e.visible = true ∧ ∀ b, e.cls = .menu → e.binding = some b → b.page = .all ∨ b.page = .page page := by
  unfold Entry.effective
  cases hc : e.cls with
  | drawing => simp
  | mark => simp
  | menu =>
    cases hb : e.binding with
    | none => simp
    | some b => cases hp : b.page <;> simp [hp]

/-- The answer depends on the cross, the directory and the page stack alone. -/
theorem answerFor_congr {s t : State} (seg : Nat) (hc : t.cross = s.cross) (hd : t.dir = s.dir) (hm : t.menu = s.menu) :
    t.answerFor seg = s.answerFor seg := by
  unfold State.answerFor State.entry State.currentPage
  rw [hc, hd, hm]

section Arrival

variable {s t a b : State} {stamp : Nat}

/-! ## Flags that come with an arrival (R2, R3, R11) -/

theorem posted_ite_setFlag (c : Prop) [Decidable c] (f : ConditionFlag) (a : State) : Posted a (if c then a.setFlag f else a) := by
  split
  · exact setFlag_posted a f
  · exact .refl a

theorem Posted.answerFor (h : Posted s t) (seg : Nat) : t.answerFor seg = s.answerFor seg :=
  answerFor_congr seg h.cross h.dir h.menu

theorem abandonRecord_of_none (h : s.port.assembler = none) : s.abandonRecord = s := by
  unfold State.abandonRecord
  rw [h]
  rfl

theorem abandonRecord_of_some (h : s.port.assembler ≠ none) :
    s.abandonRecord = State.setFlag { s with port := { s.port with assembler := none } } .portProtocol :=
  if_pos (Option.isSome_iff_ne_none.2 h)

theorem dropAnswers_of_nil (h : s.port.answers = []) : s.dropAnswers = s := by
  unfold State.dropAnswers
  rw [h]
  rfl

theorem dropAnswers_of_some (h : s.port.answers ≠ []) :
    s.dropAnswers = State.setFlag { s with port := { s.port with answers := [] } } .portProtocol :=
  if_neg (fun he => h (List.isEmpty_iff.1 he))

theorem abandonRecord_port (s : State) : s.abandonRecord.port = { s.port with assembler := none } := by
  by_cases h : s.port.assembler = none
  · rw [abandonRecord_of_none h, ← h]
  · rw [abandonRecord_of_some h, (setFlag_posted _ _).port]

theorem abandonRecord_frameTime (s : State) : s.abandonRecord.port.frameTime = s.port.frameTime := by rw [abandonRecord_port]

theorem dropAnswers_frameTime (s : State) : s.dropAnswers.port.frameTime = s.port.frameTime := by rw [dropAnswers_port]

/-! ## A queued record joins the FIFO or is dropped (R4 to R7) -/

/-- A SEGMENT-OPEN that joins ends RESYNC, and its lost mark is clear (R6). -/
theorem joinFifo_opens (s : State) (seg stamp : Nat) :
    s.joinFifo (.segmentOpen seg) stamp =
      { s with
        port :=
          { s.port with
            resync := false, pendingGap := none
            fifo :=
              s.port.fifo
                ++ [{ record := .segmentOpen seg, stamp := stamp, lost := false, gapStart := s.port.pendingGap }]
            hold := if s.port.h ≤ s.port.fifo.length + 1 then true else s.port.hold } } := by
  simp [State.joinFifo, QueuedRecord.opens, Port.holdAfterJoin]

/-- Another record keeps RESYNC and carries it as its lost mark (R6). -/
theorem joinFifo_other (s : State) {r : QueuedRecord} (hr : r.opens = false) (stamp : Nat) :
    s.joinFifo r stamp =
      { s with
        port :=
          { s.port with
            pendingGap := none
            fifo := s.port.fifo ++ [{ record := r, stamp := stamp, lost := s.port.resync, gapStart := s.port.pendingGap }]
            hold := if s.port.h ≤ s.port.fifo.length + 1 then true else s.port.hold } } := by
  simp [State.joinFifo, hr, Port.holdAfterJoin]

theorem enqueue_of_room (r : QueuedRecord) (stamp : Nat) (h : s.port.fifo.length < Config.fifoSize) :
    s.enqueue r stamp = s.joinFifo r stamp := if_pos h

theorem enqueue_of_full (r : QueuedRecord) (stamp : Nat) (h : Config.fifoSize ≤ s.port.fifo.length) :
    s.enqueue r stamp = s.dropRecord stamp := if_neg (Nat.not_lt.2 h)

theorem dropRecord_answerFor (s : State) (stamp seg : Nat) : (s.dropRecord stamp).answerFor seg = s.answerFor seg :=
  answerFor_congr seg (setFlag_posted _ _).cross (setFlag_posted _ _).dir (setFlag_posted _ _).menu

/-! ## SEGMENT-OPEN (R11, R13, R17) -/

section SegmentOpen

variable {seg : Nat} (ha : a = s.dropAnswers)
include ha

theorem segmentOpens_joins (hm : a.port.mode = .inFrame) (hroom : a.port.fifo.length < Config.fifoSize)
    (hb : b = (if a.port.openSeg.isSome then a.setFlag .portProtocol else a)) :
    s.segmentOpens seg s.port.frameTime =
      { b with
        port :=
          { a.port with
            openSeg := some seg, resync := false, pendingGap := none
            fifo :=
              a.port.fifo
                ++ [{ record := .segmentOpen seg, stamp := a.port.frameTime, lost := false, gapStart := a.port.pendingGap }]
            hold := if a.port.h ≤ a.port.fifo.length + 1 then true else a.port.hold
            answers := [a.answerFor seg] } } := by
  have hpost : Posted a b := hb ▸ posted_ite_setFlag _ _ a
  have hstamp : s.port.frameTime = a.port.frameTime := by rw [ha, dropAnswers_frameTime]
  rw [hstamp, ← hpost.port, ← hpost.answerFor]
  rw [← hpost.port] at hroom
  unfold State.segmentOpens
  dsimp only
  rw [← ha, if_pos hm, ← hb, enqueue_of_room (s := { b with port := { b.port with openSeg := some seg } }) _ _ hroom,
    joinFifo_opens]
  rfl

theorem segmentOpens_drops (hm : a.port.mode = .inFrame) (hfull : Config.fifoSize ≤ a.port.fifo.length)
    (hb : b = (if a.port.openSeg.isSome then a.setFlag .portProtocol else a)) :
    s.segmentOpens seg s.port.frameTime =
      State.answer
        (State.count
          (State.setFlag
            { b with
              port :=
                { a.port with
                  openSeg := some seg, resync := true
                  pendingGap := if a.port.resync then a.port.pendingGap else some a.port.frameTime } }
            .intakeDrop)
          .intakeDrops)
        [a.answerFor seg] := by
  have hpost : Posted a b := hb ▸ posted_ite_setFlag _ _ a
  have hstamp : s.port.frameTime = a.port.frameTime := by rw [ha, dropAnswers_frameTime]
  rw [hstamp, ← hpost.port, ← hpost.answerFor]
  rw [← hpost.port] at hfull
  unfold State.segmentOpens
  dsimp only
  rw [← ha, if_pos hm, ← hb, enqueue_of_full (s := { b with port := { b.port with openSeg := some seg } }) _ _ hfull,
    dropRecord_answerFor]
  rfl

theorem segmentOpens_discards (hm : a.port.mode ≠ .inFrame) (stamp : Nat) :
    s.segmentOpens seg stamp = (a.setFlag .portProtocol).answer [0x0000#16] := by
  unfold State.segmentOpens
  dsimp only
  rw [← ha, if_neg hm]
  rfl

end SegmentOpen

/-! ## SEGMENT-CLOSE (R11, R13) -/

section SegmentClose

variable (ha : a = s.dropAnswers)
include ha

theorem segmentCloses_joins (hm : a.port.mode = .inFrame) (hopen : a.port.openSeg ≠ none)
    (hroom : a.port.fifo.length < Config.fifoSize) :
    s.segmentCloses s.port.frameTime =
      { a with
        port :=
          { a.port with
            openSeg := none, pendingGap := none
            fifo :=
              a.port.fifo
                ++ [{ record := .segmentClose, stamp := a.port.frameTime, lost := a.port.resync,
                      gapStart := a.port.pendingGap }]
            hold := if a.port.h ≤ a.port.fifo.length + 1 then true else a.port.hold } } := by
  have hstamp : s.port.frameTime = a.port.frameTime := by rw [ha, dropAnswers_frameTime]
  rw [hstamp]
  unfold State.segmentCloses
  dsimp only
  rw [← ha, if_pos ⟨hm, Option.isSome_iff_ne_none.2 hopen⟩]
  exact (enqueue_of_room (s := { a with port := { a.port with openSeg := none } }) _ _ hroom).trans (joinFifo_other _ rfl _)

theorem segmentCloses_drops (hm : a.port.mode = .inFrame) (hopen : a.port.openSeg ≠ none)
    (hfull : Config.fifoSize ≤ a.port.fifo.length) :
    s.segmentCloses s.port.frameTime =
      State.count
        (State.setFlag
          { a with
            port :=
              { a.port with
                openSeg := none, resync := true
                pendingGap := if a.port.resync then a.port.pendingGap else some a.port.frameTime } }
          .intakeDrop)
        .intakeDrops := by
  have hstamp : s.port.frameTime = a.port.frameTime := by rw [ha, dropAnswers_frameTime]
  rw [hstamp]
  unfold State.segmentCloses
  dsimp only
  rw [← ha, if_pos ⟨hm, Option.isSome_iff_ne_none.2 hopen⟩]
  exact enqueue_of_full (s := { a with port := { a.port with openSeg := none } }) _ _ hfull

theorem segmentCloses_discards (h : a.port.mode ≠ .inFrame ∨ a.port.openSeg = none) (stamp : Nat) :
    s.segmentCloses stamp = a.setFlag .portProtocol := by
  unfold State.segmentCloses
  dsimp only
  rw [← ha, if_neg]
  rintro ⟨hm, hopen⟩
  rcases h with h | h
  · exact h hm
  · exact Option.isSome_iff_ne_none.1 hopen h

end SegmentClose

/-! ## VECTOR (R12, R13) -/

section Vector

variable {beam : Bool} {p : Stroke} (ha : a = s.dropAnswers)
include ha

theorem vectorArrives_joins (hm : a.port.mode = .inFrame) (hroom : a.port.fifo.length < Config.fifoSize) (stamp : Nat) :
    s.vectorArrives beam p stamp =
      State.count
        { a with
          port :=
            { a.port with
              pendingGap := none
              fifo :=
                a.port.fifo
                  ++ [{ record := .vector beam p, stamp := stamp, lost := a.port.resync, gapStart := a.port.pendingGap }]
              hold := if a.port.h ≤ a.port.fifo.length + 1 then true else a.port.hold } }
        .vectors := by
  unfold State.vectorArrives
  dsimp only
  rw [← ha, if_pos hm, enqueue_of_room _ _ hroom, joinFifo_other _ rfl]

theorem vectorArrives_drops (hm : a.port.mode = .inFrame) (hfull : Config.fifoSize ≤ a.port.fifo.length) (stamp : Nat) :
    s.vectorArrives beam p stamp =
      State.count
        (State.count
          (State.setFlag
            { a with
              port :=
                { a.port with
                  resync := true
                  pendingGap := if a.port.resync then a.port.pendingGap else some stamp } }
            .intakeDrop)
          .intakeDrops)
        .vectors := by
  unfold State.vectorArrives
  dsimp only
  rw [← ha, if_pos hm, enqueue_of_full _ _ hfull]
  rfl

theorem vectorArrives_discards (hm : a.port.mode ≠ .inFrame) (stamp : Nat) :
    s.vectorArrives beam p stamp = a.setFlag .portProtocol := by
  unfold State.vectorArrives
  dsimp only
  rw [← ha, if_neg hm]

end Vector

end Arrival

/-! ## The statements about records -/

theorem answerFor_cross (s : State) :
    s.answerFor 1023 = if s.cross.state = .parked then 0x0300#16 else 0x8300#16 := by
  unfold State.answerFor Cross.shown
  cases s.cross.state <;> rfl

theorem answerFor_free {s : State} {seg : Nat} (hseg : seg ≠ Config.crossSegment) (h : s.entry seg = none) : s.answerFor seg = 0x0000#16 := by
  unfold State.answerFor
  rw [if_neg hseg, h]
  rfl

theorem answerFor_defined {s : State} {seg : Nat} {e : Entry} (hseg : seg ≠ Config.crossSegment) (h : s.entry seg = some e) :
    s.answerFor seg =
      segmentAnswer (e.effective s.currentPage) e.intensity
        (if seg ∈ s.dir.shown then s.dir.shownStyle.highlight else e.highlight) := by
  unfold State.answerFor
  rw [if_neg hseg, h]
  simp only [List.contains_iff_mem]

/-- Settles O18, by the cases of the segment answer and the room in the FIFO. -/
theorem queuedRecordJoinsTheFifo : Obligations.QueuedRecordJoinsTheFifo := by
  refine ⟨fun s seg => ⟨?_, answerFor_free, ?_⟩, ?_, ?_, ?_⟩
  · rintro rfl
    exact answerFor_cross s
  · rintro e visible style hseg he hv rfl
    have hvis : e.effective s.currentPage = visible := Bool.eq_iff_iff.2 ((effective_iff e _).trans hv.symm)
    rw [answerFor_defined hseg he, hvis, segmentAnswer_eq]
    cases s.dir.shownStyle <;> rfl
  · intro dt seg s a b ha hm hroom hb
    exact congrArg Host.Outcome.next (segmentOpens_joins ha hm hroom hb)
  · intro dt s a ha hm hopen hroom
    exact congrArg Host.Outcome.next (segmentCloses_joins ha hm hopen hroom)
  · intro dt span beam p s a ha hm hroom
    rw [← abandonRecord_frameTime]
    exact congrArg Host.Outcome.next (vectorArrives_joins ha hm hroom _)

/-- Settles O19, by the full FIFO's branch of each record's arrival. -/
theorem queuedRecordDroppedAtFullFifo : Obligations.QueuedRecordDroppedAtFullFifo := by
  refine ⟨?_, ?_, ?_⟩
  · intro dt seg s a b ha hm hfull hb
    exact congrArg Host.Outcome.next (segmentOpens_drops ha hm hfull hb)
  · intro dt s a ha hm hopen hfull
    exact congrArg Host.Outcome.next (segmentCloses_drops ha hm hopen hfull)
  · intro dt span beam p s a ha hm hfull
    rw [← abandonRecord_frameTime]
    exact congrArg Host.Outcome.next (vectorArrives_drops ha hm hfull _)

theorem frameCloses_discards {s a : State} (ha : a = s.boundary) (hm : a.port.mode ≠ .inFrame) (e : FrameEndOrder) :
    s.frameCloses e = a.setFlag .portProtocol := by
  unfold State.frameCloses
  dsimp only
  rw [← ha, if_neg hm]

/-- Settles O20, by the branch outside a frame of each record's arrival. -/
theorem recordOutsideItsPlaceIsDiscarded : Obligations.RecordOutsideItsPlaceIsDiscarded := by
  refine ⟨?_, ?_, ?_, ?_⟩
  · intro dt seg s a ha hm
    exact congrArg Host.Outcome.next (segmentOpens_discards ha hm _)
  · intro dt s a ha h
    exact congrArg Host.Outcome.next (segmentCloses_discards ha h _)
  · intro dt span beam p s a ha hm
    exact congrArg Host.Outcome.next (vectorArrives_discards ha hm _)
  · intro dt e s a ha hm
    exact congrArg Host.Outcome.next (frameCloses_discards ha hm e)

/-! ## Answer words and stray words (R2, R3, R18) -/

/-- A number below a power of two, or-ed with that power, is their sum. -/
theorem frameAnswer_lead (shown : Bool) (seq : Byte) :
    BitVec.ofNat 16 ((if shown then 0x8000 else 0) + seq.toNat) =
      (if shown then 0x8000#16 else 0#16) ||| seq.zeroExtend 16 := by
  have hseq := seq.isLt
  apply BitVec.eq_of_toNat_eq
  cases shown with
  | false => simp
  | true =>
    have hor : 2 ^ 15 ||| seq.toNat = 2 ^ 15 + seq.toNat := (Nat.two_pow_add_eq_or_of_lt (i := 15) (by omega) 1).symm
    have hsum : (2 ^ 15 + seq.toNat) % 2 ^ 16 = 2 ^ 15 + seq.toNat := Nat.mod_eq_of_lt (by omega)
    have hmod : seq.toNat % 2 ^ 16 = seq.toNat := Nat.mod_eq_of_lt (by omega)
    rw [if_pos rfl, if_pos rfl, BitVec.toNat_or, BitVec.toNat_setWidth, BitVec.toNat_ofNat, hmod]
    exact hsum.trans hor.symm

/-- Settles O21, by the pending words and the layout of the frame answer's first word. -/
theorem answerReadTakesOneWord : Obligations.AnswerReadTakesOneWord := by
  refine ⟨?_, fun shown seq x y => ?_⟩
  · rintro dt s u rfl
    refine ⟨fun w rest h => congrArg Host.Outcome.next ?_, fun h => congrArg Host.Outcome.next ?_⟩
    · unfold State.readAnswer
      rw [h]
    · unfold State.readAnswer
      rw [h]
      rfl
  · unfold frameAnswer
    rw [frameAnswer_lead]

section Word

variable {s : State} {w : Word}

theorem wordWritten_of_marked (h : wordMarked w = true) : s.wordWritten w = s.markedWord w := if_pos h

theorem wordWritten_of_unmarked (h : wordMarked w = false) : s.wordWritten w = s.unmarkedWord w :=
  if_neg (fun he => Bool.false_ne_true (h.symm.trans he))

theorem markedWord_noRecord (h : wordKind w = 0 ∨ wordKind w = 6 ∨ wordKind w = 7) :
    s.markedWord w = s.abandonRecord.setFlag .portProtocol := by
  unfold State.markedWord
  rcases h with h | h | h <;> simp only [h]

theorem unmarkedWord_none (h : s.port.assembler = none) : s.unmarkedWord w = s.setFlag .portProtocol := by
  unfold State.unmarkedWord
  rw [h]

theorem unmarkedWord_continues {p : PartialVector} (h : s.port.assembler = some p) (hlen : p.words.length ≠ 3) :
    s.unmarkedWord w =
      { s with port := { s.port with assembler := some { p with words := p.words ++ [w.extractLsb' 0 12] } } } := by
  unfold State.unmarkedWord
  rw [h]
  dsimp only
  split
  next hw => exact absurd (by rw [hw]; rfl) hlen
  next => rfl

theorem unmarkedWord_completes {p : PartialVector} (h : s.port.assembler = some p) {x0 y0 x1 : BitVec 12}
    (hw : p.words = [x0, y0, x1]) :
    s.unmarkedWord w =
      State.vectorArrives { s with port := { s.port with assembler := none } } p.beam
        { x0 := x0, y0 := y0, x1 := x1, y1 := w.extractLsb' 0 12 } p.stamp := by
  unfold State.unmarkedWord
  rw [h]
  dsimp only
  rw [hw]

end Word

/-- Settles O22, by the marker, the kind and the words already written. -/
theorem strayWordIsDiscarded : Obligations.StrayWordIsDiscarded := by
  refine ⟨fun s => ⟨abandonRecord_of_none, abandonRecord_of_some, dropAnswers_of_nil, dropAnswers_of_some⟩, ?_⟩
  rintro dt w s u rfl
  have hmarked (h : wordMarked w = true) : exec (.strayWord dt w) s = .next ((s.advance dt).markedWord w) :=
    congrArg Host.Outcome.next (wordWritten_of_marked h)
  have hunmarked (h : wordMarked w = false) : exec (.strayWord dt w) s = .next ((s.advance dt).unmarkedWord w) :=
    congrArg Host.Outcome.next (wordWritten_of_unmarked h)
  refine ⟨fun h hp => ?_, fun h hk => ?_, fun h hk => ?_, fun h hk => ?_, fun h hk => ?_, fun h hk => ?_, fun h hk => ?_, ?_⟩
  · rw [hunmarked h, unmarkedWord_none hp]
  · rw [hmarked h, markedWord_noRecord hk]
  · rw [hmarked h, ← abandonRecord_frameTime]
    unfold State.markedWord
    rw [hk]
    rfl
  · rw [hmarked h]
    unfold State.markedWord
    rw [hk]
    rfl
  · rw [hmarked h]
    unfold State.markedWord
    rw [hk]
    rfl
  · rw [hmarked h]
    unfold State.markedWord
    rw [hk]
    rfl
  · rw [hmarked h]
    unfold State.markedWord
    rw [hk]
    rfl
  · rintro p v h hp rfl
    refine ⟨fun hlen => ?_, ?_⟩
    · rw [hunmarked h, unmarkedWord_continues hp hlen]
    · rintro x0 y0 x1 a r hw ha rfl
      rw [hunmarked h, unmarkedWord_completes hp hw]
      exact ⟨fun hm => congrArg Host.Outcome.next (vectorArrives_discards ha hm _),
        fun hm hroom => congrArg Host.Outcome.next (vectorArrives_joins ha hm hroom _),
        fun hm hfull => congrArg Host.Outcome.next (vectorArrives_drops ha hm hfull _)⟩

end Sys2Proof.Machine
end

section
/-! PROOFS. Time (R1, R14, R15, R63, R71, R170; O9, O26): what a timed event leaves of the timers, the fuel that suffices, and the
statements. -/

namespace Sys2Proof.Machine

variable {s t u : State}

/-! ## The timers (R63, R71, R170, R14) -/

/-- When the timed events fall due depends on the port, the pen's pulse and debounce timer, and the receivers alone. -/
theorem due_congr (hport : t.port = s.port) (hpulse : t.pen.pulse = s.pen.pulse)
    (htip : t.pen.tipTimer = s.pen.tipTimer) (htb : t.pen.tb = s.pen.tb) (hrx : ∀ n, (t.unit n).rx = (s.unit n).rx)
    (e : TimedEvent) : t.due e = s.due e := by
  cases e with
  | qualify => simp only [State.due, hpulse]
  | debounce => simp only [State.due, htip, htb]
  | gap n => simp only [State.due, hrx n]
  | absence => simp only [State.due, hport]

theorem due_absence_congr (h : t.port = s.port) : t.due .absence = s.due .absence := by simp only [State.due, h]

theorem Framed.due_qualify (h : Framed s t) : t.due .qualify = s.due .qualify := by simp only [State.due, h.pulse]

theorem Framed.due_debounce (h : Framed s t) : t.due .debounce = s.due .debounce := by
  have hpen := h.pen
  have htip : t.pen.tipTimer = s.pen.tipTimer := by rw [hpen]
  have htb : t.pen.tb = s.pen.tb := by rw [hpen]
  simp only [State.due, htip, htb]

theorem Framed.due_absence (h : Framed s t) : t.due .absence = s.due .absence := due_absence_congr h.port

theorem Correlated.due (h : Correlated s t) (e : TimedEvent) : t.due e = s.due e :=
  due_congr h.port (by rw [h.pen]) (by rw [h.pen]) (by rw [h.pen]) (fun n => (h.unit n).rx) e

/-- Each timed event falls due when it did, or not at all. -/
def Quieter (s t : State) : Prop := ∀ e, t.due e = s.due e ∨ t.due e = none

theorem Quieter.of_due (h : ∀ e, t.due e = s.due e) : Quieter s t := fun e => .inl (h e)

theorem quieter_of_stops {e : TimedEvent} (h : ∀ f, t.due f = if f = e then none else s.due f) : Quieter s t := fun f => by
  rw [h f]
  split
  · exact .inr rfl
  · exact .inl rfl

theorem Quieter.trans (h : Quieter s t) (k : Quieter t u) : Quieter s u := fun e => by
  rcases k e with hk | hk
  · rw [hk]
    exact h e
  · exact .inr hk

/-! ## What an event leaves of the timers -/

/-- The receivers of a state. -/
def State.Hears (s : State) (rx : Link → Receiver) : Prop := ∀ n, (s.unit n).rx = rx n

theorem hears_keptByParts (rx : Link → Receiver) : KeptByParts (fun t => t.Hears rx) where
  alike := fun s t _ hl h n => by
    have hunit : t.unit n = s.unit n := by cases n <;> simp only [State.unit, hl]
    rw [hunit]
    exact h n
  correlated := fun s t hc h n => ((hc.unit n).rx).trans (h n)
  staged := fun s h n => (((applyStaged_directed s).1.unit n).rx).trans (h n)
  cross := fun s h n => by
    refine (((setCross_posted s s.cross.update).unit n).rx).trans ?_
    cases n with
    | link0 => exact h .link0
    | link1 => exact h .link1

/-- The qualification ends the pulse; its hit may be correlated at once (R63, R78). -/
theorem qualify_correlated (s : State) :
    ∃ pen stats, (pen.pulse = none ∧ pen.tipTimer = s.pen.tipTimer ∧ pen.tb = s.pen.tb) ∧
      Correlated { s with pen := pen, stats := stats } s.qualify := by
  unfold State.qualify
  split
  next h => exact ⟨s.pen, s.stats, ⟨h, rfl, rfl⟩, .refl s⟩
  next p h =>
    unfold State.floodTest
    split
    · unfold State.joinWaiting
      split
      · exact ⟨{ s.pen with
            pulse := none, lastHit := some p.lead, hitCount := s.pen.hitCount + 1, waiting := s.pen.waiting ++ [p.lead] },
          s.stats.count .hits, ⟨rfl, rfl, rfl⟩, releaseTest_correlated _⟩
      · exact ⟨{ s.pen with pulse := none, lastHit := some p.lead, hitCount := s.pen.hitCount + 1 },
          s.stats.count .discarded, ⟨rfl, rfl, rfl⟩, .refl _⟩
    · exact ⟨{ s.pen with pulse := none, lastHit := some p.lead, flooded := true }, s.stats.count .discarded,
        ⟨rfl, rfl, rfl⟩, .refl _⟩

/-- It stops its timer and no other. -/
theorem qualify_due (s : State) (e : TimedEvent) : s.qualify.due e = if e = .qualify then none else s.due e := by
  obtain ⟨pen, stats, ⟨hpulse, htip, htb⟩, hcorr⟩ := qualify_correlated s
  rw [hcorr.due]
  cases e with
  | qualify => simp only [State.due, hpulse, Option.map_none, if_true]
  | debounce => simp only [State.due, htip, htb, reduceCtorEq, if_false]
  | gap n => cases n <;> rfl
  | absence => rfl

/-- A completed debounce stops its timer and no other. -/
theorem debounce_due (s : State) (e : TimedEvent) : s.debounce.due e = if e = .debounce then none else s.due e := by
  have hbefore : State.due { s with pen := { s.pen with tipDebounced := s.pen.tipRaw, tipTimer := none } } e =
      if e = .debounce then none else s.due e := by
    cases e with
    | debounce => rfl
    | qualify => rfl
    | gap n => cases n <;> rfl
    | absence => rfl
  unfold State.debounce
  dsimp only
  split
  · exact ((tipDown_resolved _).correlated.due e).trans hbefore
  · exact ((tipUp_resolved _).correlated.due e).trans hbefore
  · exact hbefore
  · exact hbefore

theorem placeReply_due (s : State) (n : Link) (r : Reply) (e : TimedEvent) : (s.placeReply n r).due e = s.due e := by
  refine due_congr (by simp) (by simp) (by simp) (by simp) (fun m => ?_) e
  unfold State.placeReply
  rw [unit_setUnit]
  split
  next h => rw [LinkUnit.kick_rx, h]
  next => rfl

/-- A failed frame stops its link's gap timer and no other. -/
theorem failFrame_due (s : State) (n : Link) (reason : FailReason) (e : TimedEvent) :
    (s.failFrame n reason).due e = if e = .gap n then none else s.due e := by
  have hhunts : (s.setReceiver n .hunting).due e = if e = .gap n then none else s.due e := by
    cases e with
    | qualify => cases n <;> rfl
    | debounce => cases n <;> rfl
    | absence => cases n <;> rfl
    | gap m => cases n <;> cases m <;> rfl
  have hflag := ((setFlag_posted (s.setReceiver n .hunting) (.frameError n)).resolved.correlated.due e).trans hhunts
  unfold State.failFrame
  dsimp only
  split
  · exact (placeReply_due _ _ _ _).trans hflag
  · exact hflag

theorem historyTakes_due (s : State) (entry : FifoEntry) (e : TimedEvent) : (s.historyTakes entry).due e = s.due e := by
  have hbefore : ∀ (hist : History) (corr : Correlator), State.due { s with hist := hist, corr := corr } e = s.due e := by
    intro hist corr
    cases e with
    | gap n => cases n <;> rfl
    | _ => rfl
  unfold State.historyTakes
  dsimp only
  split
  · exact hbefore _ s.corr
  · exact ((releaseTest_correlated _).due e).trans (hbefore _ _)

theorem flushFifo_due (s : State) (e : TimedEvent) : s.flushFifo.due e = s.due e := by
  have hentries : ∀ (l : List FifoEntry) (t : State), (handEntries l t).due e = t.due e := by
    intro l
    induction l with
    | nil => exact fun t => rfl
    | cons entry rest ih =>
      intro t
      refine (ih _).trans ((historyTakes_due _ _ _).trans ?_)
      cases e with
      | gap n => cases n <;> rfl
      | _ => rfl
  exact hentries _ s

/-- The end of a frame discards the pulse in progress and leaves the other timers (R64). -/
theorem frameEnds_due (s : State) (endTime : Nat) (o : FrameEndOrder) (e : TimedEvent) :
    (s.frameEnds endTime o).due e = if e = .qualify then none else s.due e := by
  have hpulse : ∀ e, s.discardPulse.due e = if e = .qualify then none else s.due e := by
    intro e
    rw [discardPulse_eq]
    split
    next h =>
      cases e with
      | qualify => simp only [State.due, h]; rfl
      | gap n => rfl
      | debounce => rfl
      | absence => rfl
    next =>
      cases e with
      | gap n => cases n <;> rfl
      | _ => rfl
  have hclosed : (s.discardPulse.closeHistory endTime).due e = s.discardPulse.due e := by
    cases e with
    | gap n => cases n <;> rfl
    | _ => rfl
  have hhits : (s.discardPulse.closeHistory endTime).frameHits.due e = s.discardPulse.due e := by
    refine Eq.trans ?_ (((correlateWaiting_correlated _ _ rfl).1.due e).trans hclosed)
    cases e with
    | gap n => cases n <;> rfl
    | _ => rfl
  have htasks := foldl_framed runFrameEndTask_framed (endTasks o) (s.discardPulse.closeHistory endTime).frameHits
  have hhears := (hears_keptByParts (fun n => (s.unit n).rx)).frameEnds (s := s) (fun _ => rfl) endTime o
  cases e with
  | gap n => simp only [State.due, hhears n, reduceCtorEq, if_false]
  | qualify =>
    refine Eq.trans ?_ (hhits.trans (hpulse _))
    exact htasks.due_qualify
  | debounce =>
    refine Eq.trans ?_ (hhits.trans (hpulse _))
    exact htasks.due_debounce
  | absence =>
    refine Eq.trans ?_ (hhits.trans (hpulse _))
    exact htasks.due_absence

/-- The entry into DARK stops the absence timer and no other (R15). -/
theorem enterDark_due (s : State) (o : DarkOrder) (e : TimedEvent) :
    (s.enterDark o).due e = if e = .absence then none else s.due e := by
  have hframed := (setFlag_framed { s with port := { s.port with mode := .dark, absence := 0 } } .dark).trans
    (foldl_framed runDarkTask_framed (darkTasks o) _)
  have hhears := (hears_keptByParts (fun n => (s.unit n).rx)).enterDark (s := s) (fun _ => rfl) o
  cases e with
  | gap n => simp only [State.due, hhears n, reduceCtorEq, if_false]
  | qualify =>
    exact hframed.due_qualify
  | debounce =>
    exact hframed.due_debounce
  | absence => exact hframed.due_absence

theorem absenceExpires_due_self (s : State) (e : FrameEndOrder) (o : DarkOrder) : (s.absenceExpires e o).due .absence = none := by
  unfold State.absenceExpires
  split
  next h => simp only [State.due, h]
  next => exact enterDark_due _ _ _
  next => exact enterDark_due _ _ _

theorem absenceExpires_quieter (s : State) (e : FrameEndOrder) (o : DarkOrder) : Quieter s (s.absenceExpires e o) := by
  unfold State.absenceExpires
  split
  · exact .of_due fun _ => rfl
  · exact quieter_of_stops (enterDark_due s o)
  · exact ((Quieter.of_due (flushFifo_due s)).trans (quieter_of_stops (frameEnds_due _ _ e))).trans
      (quieter_of_stops (enterDark_due _ o))

/-! ## A timed event takes place once -/

theorem fire_due_self (s : State) (e : TimedEvent) : (s.fire e).due e = none := by
  cases e with
  | qualify => exact qualify_due s .qualify
  | debounce => exact debounce_due s .debounce
  | gap n => exact (failFrame_due s n .short (.gap n)).trans (if_pos rfl)
  | absence => exact absenceExpires_due_self s _ _

theorem fire_quieter (s : State) (e : TimedEvent) : Quieter s (s.fire e) := by
  cases e with
  | qualify => exact quieter_of_stops (qualify_due s)
  | debounce => exact quieter_of_stops (debounce_due s)
  | gap n => exact quieter_of_stops (failFrame_due s n .short)
  | absence => exact absenceExpires_quieter s _ _

/-! ## Ticks in which nothing falls due -/

theorem age_age (rx : Receiver) (d e : Nat) : (rx.age d).age e = rx.age (d + e) := by
  cases rx with
  | hunting => rfl
  | receiving bytes g => exact congrArg (Receiver.receiving bytes) (Nat.add_assoc g d e)

theorem port_age_age (p : Port) (d e : Nat) : (p.age d).age e = p.age (d + e) := by
  have hmin : min (min (p.frameTime + d) Config.frameTimeLimit + e) Config.frameTimeLimit =
      min (p.frameTime + (d + e)) Config.frameTimeLimit := by omega
  unfold Port.age
  cases hm : p.mode <;> simp only [hm, hmin, Nat.add_assoc]

theorem port_age_dark {p : Port} (h : p.mode = .dark) (d : Nat) : p.age d = p := by
  unfold Port.age
  rw [h]

theorem port_age_running {p : Port} (h : p.mode ≠ .dark) (d : Nat) :
    p.age d = { p with frameTime := min (p.frameTime + d) Config.frameTimeLimit, absence := p.absence + d } := by
  unfold Port.age
  split
  next hm => exact absurd hm h
  next => rfl
  next => rfl

theorem pen_age_age (p : Pen) (d e : Nat) : (p.age d).age e = p.age (d + e) := by
  simp only [Pen.age, Option.map_map, Function.comp_def, Nat.add_assoc]

theorem elapse_elapse (s : State) (d e : Nat) : (s.elapse d).elapse e = s.elapse (d + e) := by
  have htook : ((s.hist.took && d == 0) && e == 0) = (s.hist.took && d + e == 0) := by
    cases s.hist.took <;> cases d <;> cases e <;> simp
  simp only [State.elapse, port_age_age, pen_age_age, age_age, htook]

/-- No tick leaves a state within its frame time's limit as it is. -/
theorem elapse_zero (h : s.port.frameTime ≤ Config.frameTimeLimit) : s.elapse 0 = s := by
  have hport : s.port.age 0 = s.port := by
    unfold Port.age
    cases hm : s.port.mode <;> simp only [Nat.add_zero, Nat.min_eq_left h]
    · rw [← hm]
    · rw [← hm]
  have hpen : s.pen.age 0 = s.pen := by simp [Pen.age]
  have hrx : ∀ rx : Receiver, rx.age 0 = rx := fun rx => by cases rx <;> rfl
  have htook : (s.hist.took && (0 : Nat) == 0) = s.hist.took := Bool.and_true _
  unfold State.elapse
  rw [hport, hpen, htook, hrx, hrx]

/-- The events then fall due so much sooner. -/
theorem elapse_due (s : State) (d : Nat) (e : TimedEvent) : (s.elapse d).due e = (s.due e).map (· - d) := by
  cases e with
  | qualify =>
    simp only [State.due, State.elapse, Pen.age, Option.map_map, Function.comp_def, Nat.sub_sub]
  | debounce =>
    simp only [State.due, State.elapse, Pen.age, Option.map_map, Function.comp_def, Nat.sub_sub]
  | gap n =>
    have hrx : ((s.elapse d).unit n).rx = (s.unit n).rx.age d := by cases n <;> rfl
    simp only [State.due, hrx]
    cases (s.unit n).rx with
    | hunting => rfl
    | receiving bytes g => exact congrArg some (Nat.sub_sub _ _ _).symm
  | absence =>
    simp only [State.due, State.elapse]
    unfold Port.age
    cases hm : s.port.mode with
    | dark => simp only [hm, Option.map_none]
    | inFrame => simp only [Option.map_some, Nat.sub_sub]
    | between => simp only [Option.map_some, Nat.sub_sub]

/-! ## The event that comes first -/

theorem nextOf_ne_none {l : List TimedEvent} {f : TimedEvent} (hf : f ∈ l) {m : Nat} (hm : s.due f = some m) :
    s.nextOf l ≠ none := by
  induction l with
  | nil => cases hf
  | cons a rest ih =>
    unfold State.nextOf
    cases hd : s.due a with
    | none =>
      rcases List.mem_cons.1 hf with rfl | hf
      · exact absurd (hd.symm.trans hm) (fun hn => nomatch hn)
      · exact ih hf
    | some k =>
      cases s.nextOf rest with
      | none => exact fun hn => nomatch hn
      | some c =>
        dsimp only
        split <;> exact fun hn => nomatch hn

/-- No event of the list comes before the one chosen. -/
theorem nextOf_least {l : List TimedEvent} {e : TimedEvent} {n : Nat} (h : s.nextOf l = some (e, n)) {f : TimedEvent}
    (hf : f ∈ l) {m : Nat} (hm : s.due f = some m) : n ≤ m := by
  induction l generalizing e n with
  | nil => cases h
  | cons a rest ih =>
    unfold State.nextOf at h
    cases hd : s.due a with
    | none =>
      simp only [hd] at h
      rcases List.mem_cons.1 hf with rfl | hf
      · exact absurd (hd.symm.trans hm) (fun hn => nomatch hn)
      · exact ih h hf
    | some k =>
      cases hr : s.nextOf rest with
      | none =>
        simp only [hd, hr, Option.some.injEq, Prod.mk.injEq] at h
        obtain ⟨rfl, rfl⟩ := h
        rcases List.mem_cons.1 hf with rfl | hf
        · rw [hd] at hm
          exact Nat.le_of_eq (Option.some.inj hm)
        · exact absurd hr (nextOf_ne_none hf hm)
      | some c =>
        obtain ⟨g, j⟩ := c
        simp only [hd, hr] at h
        split at h
        all_goals
          simp only [Option.some.injEq, Prod.mk.injEq] at h
          obtain ⟨rfl, rfl⟩ := h
          rcases List.mem_cons.1 hf with rfl | hf
          · rw [hd] at hm
            have := Option.some.inj hm
            omega
          · have := ih hr hf
            omega

theorem nextOf_due_mem {l : List TimedEvent} {e : TimedEvent} {n : Nat} (h : s.nextOf l = some (e, n)) :
    e ∈ l ∧ s.due e = some n := by
  refine ⟨?_, nextOf_due h⟩
  induction l with
  | nil => cases h
  | cons a rest ih =>
    unfold State.nextOf at h
    cases hd : s.due a with
    | none =>
      simp only [hd] at h
      exact List.mem_cons_of_mem _ (ih h)
    | some k =>
      cases hr : s.nextOf rest with
      | none =>
        simp only [hd, hr, Option.some.injEq, Prod.mk.injEq] at h
        exact h.1 ▸ List.mem_cons_self
      | some c =>
        simp only [hd, hr] at h
        split at h
        · exact List.mem_cons_of_mem _ (ih (hr.trans h))
        · simp only [Option.some.injEq, Prod.mk.injEq] at h
          exact h.1 ▸ List.mem_cons_self

/-- Ticks before the first event leave the choice as it is. -/
theorem nextOf_elapse {l : List TimedEvent} {d : Nat} (h : ∀ f ∈ l, ∀ m, s.due f = some m → d ≤ m) :
    (s.elapse d).nextOf l = (s.nextOf l).map (fun c => (c.1, c.2 - d)) := by
  induction l with
  | nil => rfl
  | cons a rest ih =>
    have hrest := ih (fun f hf => h f (List.mem_cons_of_mem _ hf))
    unfold State.nextOf
    rw [elapse_due, hrest]
    cases hd : s.due a with
    | none => rfl
    | some k =>
      cases hr : s.nextOf rest with
      | none => rfl
      | some c =>
        obtain ⟨g, j⟩ := c
        have hk := h a List.mem_cons_self k hd
        by_cases hlt : j < k
        · have hlt' : j - d < k - d := by
            have hj := nextOf_due_mem hr
            have := h g (List.mem_cons_of_mem _ hj.1) j hj.2
            omega
          simp only [Option.map_some, if_pos hlt, if_pos hlt']
        · have hlt' : ¬ j - d < k - d := by omega
          simp only [Option.map_some, if_neg hlt, if_neg hlt']

/-- Of the events due now, the first of the list is chosen. -/
theorem nextOf_of_due_now {pre post : List TimedEvent} {e : TimedEvent} (he : s.due e = some 0)
    (hpre : ∀ f ∈ pre, s.due f ≠ some 0) : s.nextOf (pre ++ e :: post) = some (e, 0) := by
  induction pre with
  | nil =>
    unfold State.nextOf
    simp only [List.nil_append, he]
    cases s.nextOf post with
    | none => rfl
    | some c => exact if_neg (Nat.not_lt_zero _)
  | cons a rest ih =>
    have hrest := ih (fun f hf => hpre f (List.mem_cons_of_mem _ hf))
    unfold State.nextOf
    simp only [List.cons_append, hrest]
    cases hd : s.due a with
    | none => rfl
    | some k =>
      have hk : 0 < k := Nat.pos_of_ne_zero (fun hz => hpre a List.mem_cons_self (hz ▸ hd))
      exact if_pos hk

/-! ## The fuel suffices -/

theorem mem_timedEvents (e : TimedEvent) : e ∈ timedEvents := by
  cases e with
  | gap n => cases n <;> simp [timedEvents]
  | _ => simp [timedEvents]

theorem sum_map_le {f g : TimedEvent → Nat} (h : ∀ e, f e ≤ g e) (l : List TimedEvent) : (l.map f).sum ≤ (l.map g).sum := by
  induction l with
  | nil => exact Nat.le_refl 0
  | cons e l ih =>
    rw [List.map_cons, List.map_cons, List.sum_cons, List.sum_cons]
    exact Nat.add_le_add (h e) ih

theorem sum_map_lt {f g : TimedEvent → Nat} (h : ∀ e, f e ≤ g e) {e : TimedEvent} {l : List TimedEvent} (he : e ∈ l)
    (hlt : f e < g e) : (l.map f).sum < (l.map g).sum := by
  induction l with
  | nil => exact absurd he List.not_mem_nil
  | cons a l ih =>
    rw [List.map_cons, List.map_cons, List.sum_cons, List.sum_cons]
    rcases List.mem_cons.1 he with rfl | he
    · exact Nat.add_lt_add_of_lt_of_le hlt (sum_map_le h l)
    · exact Nat.add_lt_add_of_le_of_lt (h a) (ih he)

/-- The number of timers that run. -/
def State.live (s : State) : Nat := (timedEvents.map (fun e => if (s.due e).isSome then 1 else 0)).sum

theorem live_le (s : State) : s.live ≤ 5 := by
  have hone : ∀ e, (if (s.due e).isSome then 1 else 0) ≤ 1 := fun e => by split <;> omega
  have := hone .qualify
  have := hone .debounce
  have := hone (.gap .link0)
  have := hone (.gap .link1)
  have := hone .absence
  simp only [State.live, timedEvents, List.map_cons, List.map_nil, List.sum_cons, List.sum_nil]
  omega

theorem live_elapse (s : State) (d : Nat) : (s.elapse d).live = s.live := by
  simp only [State.live, elapse_due, Option.isSome_map]

/-- An event that takes place leaves fewer timers running. -/
theorem live_fire {e : TimedEvent} {n : Nat} (h : s.due e = some n) : (s.fire e).live < s.live := by
  refine sum_map_lt (fun f => ?_) (mem_timedEvents e) ?_
  · rcases fire_quieter s e f with hf | hf
    · exact Nat.le_of_eq (by rw [hf])
    · rw [hf]
      exact Nat.zero_le _
  · rw [fire_due_self, h]
    exact Nat.zero_lt_one

theorem live_fire_elapse {e : TimedEvent} {n m : Nat} (h : s.due e = some n) : ((s.elapse m).fire e).live < s.live := by
  have hdue : (s.elapse m).due e = some (n - m) := by rw [elapse_due, h]; rfl
  exact Nat.lt_of_lt_of_eq (live_fire hdue) (live_elapse s m)

/-- Fuel beyond the number of timers that run changes nothing. -/
theorem advanceBy_of_live {k m d : Nat} (hk : s.live ≤ k) (hm : s.live ≤ m) :
    State.advanceBy k d s = State.advanceBy m d s := by
  have hpos : ∀ {e : TimedEvent} {n : Nat}, s.nextOf timedEvents = some (e, n) → 0 < s.live := fun h =>
    Nat.zero_lt_of_lt (live_fire (nextOf_due h))
  induction k generalizing m d s with
  | zero =>
    cases m with
    | zero => rfl
    | succ m =>
      unfold State.advanceBy
      cases hn : s.nextOf timedEvents with
      | none => rfl
      | some c => exact absurd (hpos hn) (by omega)
  | succ k ih =>
    cases m with
    | zero =>
      unfold State.advanceBy
      cases hn : s.nextOf timedEvents with
      | none => rfl
      | some c => exact absurd (hpos hn) (by omega)
    | succ m =>
      unfold State.advanceBy
      cases hn : s.nextOf timedEvents with
      | none => rfl
      | some c =>
        obtain ⟨e, n⟩ := c
        have hlive := live_fire_elapse (m := n) (nextOf_due hn)
        have hrest := ih (s := (s.elapse n).fire e) (m := m) (d := d - n) (by omega) (by omega)
          (fun h => Nat.zero_lt_of_lt (live_fire (nextOf_due h)))
        simp only [hrest]

/-! ## Time passes event by event -/

theorem advanceBy_of_none {d : Nat} (h : s.nextOf timedEvents = none) : State.advanceBy 5 d s = s.elapse d := by
  unfold State.advanceBy
  rw [h]

theorem advanceBy_of_later {e : TimedEvent} {n d : Nat} (h : s.nextOf timedEvents = some (e, n)) (hd : d ≤ n) :
    State.advanceBy 5 d s = s.elapse d := by
  unfold State.advanceBy
  rw [h]
  exact if_neg (Nat.not_lt.2 hd)

theorem advanceBy_of_sooner {e : TimedEvent} {n d : Nat} (h : s.nextOf timedEvents = some (e, n)) (hd : n < d) :
    State.advanceBy 5 d s = State.advanceBy 5 (d - n) ((s.elapse n).fire e) := by
  have hlive := live_fire_elapse (m := n) (nextOf_due h)
  have hle := live_le s
  refine Eq.trans ?_ (advanceBy_of_live (k := 4) (by omega) (live_le _))
  conv =>
    lhs
    unfold State.advanceBy
  rw [h]
  exact if_pos hd

/-- Time that passes in two parts passes as in one, event by event. -/
theorem advanceBy_add (s : State) (d e : Nat) :
    State.advanceBy 5 e (State.advanceBy 5 d s) = State.advanceBy 5 (d + e) s := by
  induction hl : s.live using Nat.strongRecOn generalizing s d with
  | _ k ih =>
    cases hn : s.nextOf timedEvents with
    | none =>
      have hafter : (s.elapse d).nextOf timedEvents = none := by
        rw [nextOf_elapse (fun f hf m hm => absurd hn (nextOf_ne_none hf hm)), hn]
        rfl
      rw [advanceBy_of_none hn, advanceBy_of_none hn, advanceBy_of_none hafter, elapse_elapse]
    | some c =>
      obtain ⟨f, n⟩ := c
      by_cases hd : n < d
      · rw [advanceBy_of_sooner hn hd, advanceBy_of_sooner hn (Nat.lt_add_right e hd),
          ih _ (hl ▸ live_fire_elapse (nextOf_due hn)) _ _ rfl]
        congr 1
        omega
      · have hd' := Nat.not_lt.1 hd
        have hafter : (s.elapse d).nextOf timedEvents = some (f, n - d) := by
          rw [nextOf_elapse (fun g hg m hm => Nat.le_trans hd' (nextOf_least hn hg hm)), hn]
          rfl
        rw [advanceBy_of_later hn hd']
        by_cases he : n < d + e
        · have hrest : e - (n - d) = d + e - n := by omega
          rw [advanceBy_of_sooner hn he, advanceBy_of_sooner hafter (by omega), elapse_elapse, Nat.add_sub_cancel' hd', hrest]
        · rw [advanceBy_of_later hn (Nat.not_lt.1 he), advanceBy_of_later hafter (by omega), elapse_elapse]

theorem advance_of_pos (s : State) {d : Nat} (h : 0 < d) : s.advance d = State.advanceBy 5 d s := if_neg (Nat.pos_iff_ne_zero.1 h)

theorem advance_zero (s : State) : s.advance 0 = s := rfl

theorem advance_add (s : State) (d e : Nat) : (s.advance d).advance e = s.advance (d + e) := by
  rcases Nat.eq_zero_or_pos d with rfl | hd
  · rw [advance_zero, Nat.zero_add]
  · rcases Nat.eq_zero_or_pos e with rfl | he
    · rfl
    · rw [advance_of_pos s hd, advance_of_pos _ he, advance_of_pos s (Nat.add_pos_left hd e), advanceBy_add]

/-- What is due now comes before the next tick, the first of the list of timed events first (log 2). -/
theorem advance_of_due_now {pre post : List TimedEvent} {e : TimedEvent} (hl : timedEvents = pre ++ e :: post)
    (he : s.due e = some 0) (hpre : ∀ f ∈ pre, s.due f ≠ some 0) (ht : s.port.frameTime ≤ Config.frameTimeLimit) {d : Nat}
    (hd : 0 < d) : s.advance d = (s.fire e).advance d := by
  have hn : s.nextOf timedEvents = some (e, 0) := hl ▸ nextOf_of_due_now he hpre
  rw [advance_of_pos s hd, advance_of_pos _ hd, advanceBy_of_sooner hn hd, Nat.sub_zero, elapse_zero ht]

/-! ## What is due now -/

theorem due_qualify_iff (s : State) :
    s.due .qualify = some 0 ↔ s.pen.pulse.any (fun p => decide (p.wmin ≤ p.stood)) = true := by
  simp only [State.due]
  cases s.pen.pulse with
  | none => simp
  | some p => simp [Nat.sub_eq_zero_iff_le]

theorem due_debounce_iff (s : State) :
    s.due .debounce = some 0 ↔ s.pen.tipTimer.any (fun e => decide (s.pen.tb * Config.ticksPerMs ≤ e)) = true := by
  simp only [State.due, debounceTicks]
  cases s.pen.tipTimer with
  | none => simp
  | some e => simp [Nat.sub_eq_zero_iff_le]

theorem due_gap_iff (s : State) (n : Link) :
    s.due (.gap n) = some 0 ↔
      (match (s.unit n).rx with | .hunting => false | .receiving _ g => decide (Config.gapLimit ≤ g)) = true := by
  simp only [State.due]
  cases (s.unit n).rx with
  | hunting => simp
  | receiving bytes g => simp [Nat.sub_eq_zero_iff_le]

theorem due_absence_iff (s : State) :
    s.due .absence = some 0 ↔ decide (s.port.mode ≠ .dark ∧ s.port.ta * Config.ticksPerMs ≤ s.port.absence) = true := by
  simp only [State.due]
  cases s.port.mode <;> simp [Nat.sub_eq_zero_iff_le]

/-- A command that waits for a timed event due now waits no time. -/
theorem runTo_of_due_now {e : TimedEvent} (h : s.due e = some 0) : s.runTo e = (s, true) := by
  unfold State.runTo
  rw [h]
  simp only [advance_zero, h, decide_true]

/-- A tick in which nothing falls due, counter by counter and timer by timer. -/
theorem elapse_one (s : State) (older : Receiver → Receiver)
    (holder : older = fun rx => match rx with | .hunting => .hunting | .receiving bytes g => .receiving bytes (g + 1)) :
    s.elapse 1 =
      { s with
        port :=
          if s.port.mode = .dark then s.port
          else { s.port with frameTime := min (s.port.frameTime + 1) 10000000, absence := s.port.absence + 1 }
        pen :=
          { s.pen with
            pulse := s.pen.pulse.map (fun p => { p with stood := p.stood + 1 })
            tipTimer := s.pen.tipTimer.map (fun e => e + 1) }
        hist := { s.hist with took := false }
        links :=
          { s.links with
            u0 := { s.links.u0 with rx := older s.links.u0.rx }
            u1 := { s.links.u1 with rx := older s.links.u1.rx } } } := by
  have hrx : ∀ rx : Receiver, rx.age 1 = older rx := fun rx => by rw [holder]; cases rx <;> rfl
  have hport : s.port.age 1 =
      if s.port.mode = .dark then s.port
      else { s.port with frameTime := min (s.port.frameTime + 1) 10000000, absence := s.port.absence + 1 } := by
    split
    next h => exact port_age_dark h 1
    next h => exact port_age_running h 1
  have htook : (s.hist.took && (1 : Nat) == 0) = false := Bool.and_false _
  unfold State.elapse
  rw [hport, htook, hrx, hrx]
  rfl

/-- Settles O9: time adds because each timed event takes place once, and the first of those due now is the one its command brings about. -/
theorem timeAdds : Obligations.TimeAdds := by
  refine ⟨advance_add, ?_⟩
  intro s pulse tip absent gap older hpulse htip hgap habsent holder
  have hq : s.due .qualify = some 0 ↔ pulse = true := hpulse ▸ due_qualify_iff s
  have hd : s.due .debounce = some 0 ↔ tip = true := htip ▸ due_debounce_iff s
  have hg (n : Link) : s.due (.gap n) = some 0 ↔ gap n = true := hgap ▸ due_gap_iff s n
  have ha : s.due .absence = some 0 ↔ absent = true := habsent ▸ due_absence_iff s
  have not_due {e : TimedEvent} {b : Bool} (h : s.due e = some 0 ↔ b = true) (hb : b = false) : s.due e ≠ some 0 := fun he =>
    Bool.false_ne_true (hb.symm.trans (h.1 he))
  refine ⟨fun hp ht h0 h1 hab => ?_, fun hlimit => ⟨fun hp => ?_, fun hp ht => ?_, fun hp ht h0 => ?_,
    fun hp ht h0 h1 => ?_, fun hp ht h0 h1 hab => ?_⟩⟩
  · rw [advance_one_of_nothing_due, elapse_one s older holder]
    intro e
    cases e with
    | qualify => exact not_due hq hp
    | debounce => exact not_due hd ht
    | gap n =>
      cases n with
      | link0 => exact not_due (hg .link0) h0
      | link1 => exact not_due (hg .link1) h1
    | absence => exact not_due ha hab
  · have hnow := hq.2 hp
    refine ⟨s.qualify, ?_, advance_of_due_now (pre := []) rfl hnow (by simp) hlimit Nat.one_pos⟩
    simp only [exec, execPulseQualify, runTo_of_due_now hnow, if_true]
  · have hnow := hd.2 ht
    refine ⟨s.debounce, ?_, advance_of_due_now (pre := [.qualify]) rfl hnow (by simpa using not_due hq hp) hlimit Nat.one_pos⟩
    simp only [exec, execTipDebounceExpiry, runTo_of_due_now hnow, if_true]
  · exact ⟨s.failFrame .link0 .short, rfl, advance_of_due_now (pre := [.qualify, .debounce]) rfl ((hg _).2 h0)
      (by simpa using ⟨not_due hq hp, not_due hd ht⟩) hlimit Nat.one_pos⟩
  · exact ⟨s.failFrame .link1 .short, rfl, advance_of_due_now (pre := [.qualify, .debounce, .gap .link0]) rfl ((hg _).2 h1)
      (by simpa using ⟨not_due hq hp, not_due hd ht, not_due (hg _) h0⟩) hlimit Nat.one_pos⟩
  · have hnow := ha.2 hab
    refine ⟨s.absenceExpires defaultEndOrder defaultDarkOrder, ?_,
      advance_of_due_now (pre := [.qualify, .debounce, .gap .link0, .gap .link1]) rfl hnow
        (by simpa using ⟨not_due hq hp, not_due hd ht, not_due (hg _) h0, not_due (hg _) h1⟩) hlimit Nat.one_pos⟩
    simp only [exec, execAbsenceTimerExpiry, runTo_of_due_now hnow, if_true]

/-! ## The frame time's limit (R1) -/

theorem failFrame_port (s : State) (n : Link) (reason : FailReason) : (s.failFrame n reason).port = s.port := by
  have hflag : ((s.setReceiver n .hunting).setFlag (.frameError n)).port = s.port :=
    (setFlag_posted _ _).port.trans (setUnit_port _ _ _)
  unfold State.failFrame
  dsimp only
  split
  · exact (placeReply_port _ _ _).trans hflag
  · exact hflag

theorem debounce_port (s : State) : s.debounce.port = s.port := by
  unfold State.debounce
  dsimp only
  split
  · exact (tipDown_resolved _).port
  · exact (tipUp_resolved _).port
  · rfl
  · rfl

/-- Of the timed events the absence alone touches the port. -/
theorem fire_port {e : TimedEvent} (h : e ≠ .absence) : (s.fire e).port = s.port := by
  cases e with
  | qualify =>
    obtain ⟨pen, stats, -, hcorr⟩ := qualify_correlated s
    exact hcorr.port
  | debounce => exact debounce_port s
  | gap n => exact failFrame_port s n .short
  | absence => exact absurd rfl h

theorem flushFifo_frameTime (s : State) : s.flushFifo.port.frameTime = s.port.frameTime := by
  have htakes : ∀ (e : FifoEntry) (t : State), (t.historyTakes e).port = t.port := by
    intro e t
    unfold State.historyTakes
    dsimp only
    split
    · rfl
    · exact (releaseTest_correlated _).port
  have hentries : ∀ (l : List FifoEntry) (t : State), (handEntries l t).port.frameTime = t.port.frameTime := by
    intro l
    induction l with
    | nil => exact fun t => rfl
    | cons e rest ih =>
      intro t
      unfold handEntries
      rw [ih, htakes]
  exact hentries _ s

theorem frameEnds_port (s : State) (endTime : Nat) (o : FrameEndOrder) :
    (s.frameEnds endTime o).port = { s.port with pendingGap := none, resync := false, openSeg := none } := by
  have hport : s.discardPulse.port = s.port := by
    rw [discardPulse_eq]
    split <;> rfl
  calc (s.frameEnds endTime o).port = (s.discardPulse.closeHistory endTime).frameHits.port :=
        (foldl_framed runFrameEndTask_framed (endTasks o) _).port
    _ = (s.discardPulse.closeHistory endTime).port := (correlateWaiting_correlated _ _ rfl).1.port
    _ = { s.port with pendingGap := none, resync := false, openSeg := none } := by rw [← hport]; rfl

theorem enterDark_port (s : State) (o : DarkOrder) : (s.enterDark o).port = { s.port with mode := .dark, absence := 0 } :=
  ((setFlag_framed _ .dark).trans (foldl_framed runDarkTask_framed (darkTasks o) _)).port

theorem fire_frameTime (s : State) (e : TimedEvent) : (s.fire e).port.frameTime = s.port.frameTime := by
  by_cases h : e = .absence
  · subst h
    show (s.absenceExpires defaultEndOrder defaultDarkOrder).port.frameTime = _
    unfold State.absenceExpires
    split
    · rfl
    · rw [enterDark_port]
    · dsimp only
      rw [enterDark_port, frameEnds_port]
      exact flushFifo_frameTime s
  · rw [fire_port h]

/-- What the passing of ticks and the timed events keep, time keeps. -/
theorem advance_keeps {P : State → Prop} (helapse : ∀ t d, P t → P (State.elapse t d)) (hfire : ∀ t e, P t → P (State.fire t e))
    (d : Nat) (h : P s) : P (s.advance d) := by
  have hadvance : ∀ (fuel d : Nat) (t : State), P t → P (State.advanceBy fuel d t) := by
    intro fuel
    induction fuel with
    | zero => exact fun d t ht => helapse t d ht
    | succ k ih =>
      intro d t ht
      unfold State.advanceBy
      split
      · exact helapse t d ht
      · split
        · exact ih _ _ (hfire _ _ (helapse t _ ht))
        · exact helapse t d ht
  unfold State.advance
  split
  · exact h
  · exact hadvance 5 d s h

/-- A frame time at its limit stays there (R1). -/
theorem advance_at_limit (d : Nat) (h : s.port.frameTime = Config.frameTimeLimit) :
    (s.advance d).port.frameTime = Config.frameTimeLimit := by
  refine advance_keeps (P := fun t => t.port.frameTime = Config.frameTimeLimit) (fun t d ht => ?_)
    (fun t e ht => (fire_frameTime t e).trans ht) d h
  show (t.port.age d).frameTime = _
  by_cases hm : t.port.mode = .dark
  · rw [port_age_dark hm, ht]
  · rw [port_age_running hm, ht]
    exact Nat.min_eq_right (Nat.le_add_right _ _)

/-- Until the absence timer expires, the port's counters run with the ticks (R1, R14). -/
theorem advanceBy_port (fuel : Nat) {d m : Nat} (hdue : s.due .absence = some m) (hd : d ≤ m) :
    (State.advanceBy fuel d s).port = s.port.age d := by
  induction fuel generalizing d m s with
  | zero => rfl
  | succ k ih =>
    unfold State.advanceBy
    split
    · rfl
    next e n hn =>
      split
      next hlt =>
        have hne : e ≠ .absence := by
          rintro rfl
          have hnm : n = m := Option.some.inj ((nextOf_due hn).symm.trans hdue)
          omega
        have hport : ((s.elapse n).fire e).port = s.port.age n := fire_port hne
        have hdue' : ((s.elapse n).fire e).due .absence = some (m - n) := by
          rw [due_absence_congr (s := s.elapse n) hport, elapse_due, hdue]
          rfl
        rw [ih hdue' (by omega), hport, port_age_age, Nat.add_sub_cancel' (Nat.le_of_lt hlt)]
      next => rfl

theorem due_absence_of_running (h : s.port.mode ≠ .dark) :
    s.due .absence = some (s.port.ta * Config.ticksPerMs - s.port.absence) := by
  simp only [State.due]
  cases hmode : s.port.mode with
  | dark => exact absurd hmode h
  | inFrame => rfl
  | between => rfl

/-- Time that runs to the absence timer's expiry finds it due (R15). -/
theorem advance_due_absence {m : Nat} (hdue : s.due .absence = some m) : (s.advance m).due .absence = some 0 := by
  rcases Nat.eq_zero_or_pos m with rfl | hm
  · exact hdue
  · have hport : (s.advance m).port = (s.elapse m).port := by
      rw [advance_of_pos s hm]
      exact advanceBy_port 5 hdue (Nat.le_refl _)
    rw [due_absence_congr hport, elapse_due, hdue, Option.map_some, Nat.sub_self]

/-- Settles O26: before its limit the counter runs with the ticks, and at its limit every event leaves it. -/
theorem frameTimeStopsAtItsLimit : Obligations.FrameTimeStopsAtItsLimit := by
  intro s hlimit
  refine ⟨fun hm => ?_, fun hm habs => ?_⟩
  · simp only [exec, execFrameTimeLimit, ticksToLimit, hm, advance_zero]
  · have hdue := due_absence_of_running hm
    have hticks : ticksToLimit s = Config.frameTimeLimit - s.port.frameTime := by
      unfold ticksToLimit
      cases hmode : s.port.mode with
      | dark => exact absurd hmode hm
      | inFrame => rfl
      | between => rfl
    have hat : (s.advance (Config.frameTimeLimit - s.port.frameTime)).port.frameTime = Config.frameTimeLimit := by
      unfold State.advance
      split
      next h0 => omega
      next =>
        rw [advanceBy_port 5 hdue habs, port_age_running hm]
        show min _ _ = _
        omega
    refine ⟨?_, hat, fun d => ?_⟩
    · simp only [exec, execFrameTimeLimit, hticks]
    · rw [← advance_add]
      exact advance_at_limit d hat

end Sys2Proof.Machine
end

section
/-! PROOFS. The boundary records and the absence (R8 to R10, R15; O23, O24, O25): what the emptying of the FIFO, the frame's end, the
frame's start and the entry into DARK leave. -/

namespace Sys2Proof.Machine

variable {s t u : State}

/-! ## The emptying of the FIFO (R4) -/

/-- What the history's taking of entries leaves as it was. -/
structure Handed (s t : State) : Prop where
  port : t.port = { s.port with fifo := t.port.fifo, hold := t.port.hold }
  pen : t.pen = { s.pen with waiting := t.pen.waiting }
  dir : t.dir = { s.dir with echoes := t.dir.echoes }
  filt : t.filt = s.filt
  answerOut : t.answerOut = s.answerOut
  pending : t.pending = s.pending
  kept : Kept s t

theorem Handed.refl (s : State) : Handed s s := ⟨rfl, rfl, rfl, rfl, rfl, rfl, .refl s⟩

theorem Handed.trans (h : Handed s t) (k : Handed t u) : Handed s u where
  port := by
    have hport := k.port
    rw [h.port] at hport
    exact hport
  pen := by
    have hpen := k.pen
    rw [h.pen] at hpen
    exact hpen
  dir := by
    have hdir := k.dir
    rw [h.dir] at hdir
    exact hdir
  filt := k.filt.trans h.filt
  answerOut := k.answerOut.trans h.answerOut
  pending := k.pending.trans h.pending
  kept := h.kept.trans k.kept

theorem Correlated.handed (h : Correlated s t) : Handed s t :=
  ⟨by rw [h.port], h.pen, h.dir, h.filt, h.answerOut, h.pending, h.kept⟩

theorem historyTakes_handed (s : State) (e : FifoEntry) : Handed s (s.historyTakes e) := by
  have htaken : ∀ (corr : Correlator), (corr.l, corr.w) = (s.corr.l, s.corr.w) →
      Handed s { s with hist := s.hist.takeEntry e, corr := corr } := fun corr h =>
    ⟨rfl, rfl, rfl, rfl, rfl, rfl, ⟨rfl, rfl, h, rfl, rfl, rfl, rfl, rfl⟩, fun _ => id⟩
  unfold State.historyTakes
  dsimp only
  split
  · exact htaken s.corr rfl
  · refine Handed.trans ?_ (releaseTest_correlated _).handed
    exact htaken _ rfl

theorem flushFifo_handed (s : State) : Handed s s.flushFifo := by
  have hentries : ∀ (l : List FifoEntry) (t : State), Handed t (handEntries l t) := by
    intro l
    induction l with
    | nil => exact Handed.refl
    | cons e rest ih =>
      intro t
      have hleaves : ∀ hold, Handed t { t with port := { t.port with fifo := rest, hold := hold } } := fun _ =>
        ⟨rfl, rfl, rfl, rfl, rfl, rfl, ⟨rfl, rfl, rfl, rfl, rfl, rfl, rfl, rfl⟩, fun _ => id⟩
      unfold handEntries
      exact (hleaves _).trans ((historyTakes_handed _ e).trans (ih _))
  exact hentries _ s

/-! ## The frame's end (R9, R10, R56, R64, R79) -/

/-- What the tasks of a frame's end leave of the directory, the coordinate unit and, while the port is not DARK, the current pages. -/
structure Ended (s t : State) : Prop where
  framed : Framed s t
  dir : t.dir = { s.dir with echoes := t.dir.echoes }
  coord : t.coord = s.coord
  current : s.port.mode ≠ .dark → t.menu.current = s.menu.current

theorem Ended.refl (s : State) : Ended s s := ⟨.refl s, rfl, rfl, fun _ => rfl⟩

theorem Ended.trans (h : Ended s t) (k : Ended t u) : Ended s u where
  framed := h.framed.trans k.framed
  dir := by
    have hdir := k.dir
    rw [h.dir] at hdir
    exact hdir
  coord := k.coord.trans h.coord
  current := fun hm => (k.current (by rw [h.framed.port]; exact hm)).trans (h.current hm)

theorem Resolved.ended (h : Resolved s t) : Ended s t := ⟨h.framed, h.dir, h.coord, h.lit⟩

theorem setFlag_ended (s : State) (f : ConditionFlag) : Ended s (s.setFlag f) := (setFlag_posted s f).resolved.ended

theorem follow_current (m : Menu) (item : Option Nat) : (m.follow item).current = m.current := by
  unfold Menu.follow
  dsimp only
  repeat' split
  all_goals rfl

theorem penReckoning_ended (s : State) : Ended s (penReckoning s) := by
  have hfloods : ∀ k, Ended s { s with pen := { s.pen with floods := k } } := fun _ =>
    ⟨⟨rfl, rfl, rfl, rfl, rfl, rfl, rfl⟩, rfl, rfl, fun _ => rfl⟩
  have hmuted : ∀ t : State, Ended t { t with pen := { t.pen with muted := true } } := fun _ =>
    ⟨⟨rfl, rfl, rfl, rfl, rfl, rfl, rfl⟩, rfl, rfl, fun _ => rfl⟩
  unfold penReckoning
  split
  · exact .refl s
  · split
    · have hflood := (hfloods (s.pen.floods + 1)).trans (setFlag_ended _ .flood)
      dsimp only
      split
      · exact ((hflood.trans (hmuted _)).trans (setFlag_ended _ _)).trans (loseAttempt_resolved _ _).ended
      · exact hflood
    · exact hfloods 0

theorem dwellChoice_ended (s : State) (e : FrameSum) : Ended s (s.dwellChoice e) :=
  have hnumbered : Ended s (State.count { s with res := { s.res with number := s.res.number + 1 } } .attempts) :=
    ⟨⟨rfl, rfl, rfl, rfl, rfl, rfl, rfl⟩, rfl, rfl, fun _ => rfl⟩
  hnumbered.trans (menuOutcome_resolved _ _ _ _).ended

theorem menuDwell_ended (s : State) : Ended s (menuDwell s) := by
  have hmenu : ∀ (t : State) (m : Menu), m.current = t.menu.current → Ended t { t with menu := m } := fun _ _ h =>
    ⟨⟨rfl, rfl, rfl, rfl, rfl, rfl, rfl⟩, rfl, rfl, fun _ => h⟩
  unfold menuDwell
  dsimp only
  split
  · exact hmenu s _ (follow_current _ _)
  · split
    · exact ((hmenu s _ (follow_current _ _)).trans (dwellChoice_ended _ _)).trans (hmenu _ _ rfl)
    · exact hmenu s _ (follow_current _ _)

theorem runFrameEndTask_ended (task : FrameEndTask) (s : State) : Ended s (runFrameEndTask task s) := by
  have hcross : ∀ c, Ended s { s with cross := c } := fun _ =>
    ⟨⟨rfl, rfl, rfl, rfl, rfl, rfl, rfl⟩, rfl, rfl, fun _ => rfl⟩
  cases task with
  | penReckoning => exact penReckoning_ended s
  | crossUpdate => exact (hcross _).trans (setCross_posted s _).resolved.ended
  | resolverCount => exact (resolverCount_resolved s).ended
  | menuDwell => exact menuDwell_ended s

theorem foldl_endTasks_ended (tasks : List FrameEndTask) (s : State) :
    Ended s (tasks.foldl (fun t task => runFrameEndTask task t) s) := by
  induction tasks generalizing s with
  | nil => exact .refl s
  | cons task rest ih => exact (runFrameEndTask_ended task s).trans (ih _)

/-- What the frame's end leaves: no pulse, no waiting hit, the history closed; the port's frame state ended; all else of these blocks
as it was. -/
structure FrameEnded (s : State) (endTime : Nat) (t : State) : Prop where
  port : t.port = { s.port with pendingGap := none, resync := false, openSeg := none }
  hist : t.hist = s.hist.frameEnd endTime s.port.pendingGap
  pen : t.pen = { s.pen with pulse := none, waiting := [], floods := t.pen.floods, muted := t.pen.muted }
  done : t.corr.frameDone = true
  dir : t.dir = { s.dir with echoes := t.dir.echoes }
  coord : t.coord = s.coord
  filt : t.filt = s.filt
  current : s.port.mode ≠ .dark → t.menu.current = s.menu.current
  answerOut : t.answerOut = s.answerOut
  pending : t.pending = s.pending

theorem frameEnds_frameEnded (s : State) (endTime : Nat) (o : FrameEndOrder) : FrameEnded s endTime (s.frameEnds endTime o) := by
  have hclosed : s.discardPulse.closeHistory endTime =
      { s with
        port := { s.port with pendingGap := none, resync := false, openSeg := none }
        hist := s.hist.frameEnd endTime s.port.pendingGap
        pen := { s.pen with pulse := none }
        corr := (s.discardPulse.closeHistory endTime).corr
        stats := s.discardPulse.stats } := by
    rw [discardPulse_eq]
    split
    next h =>
      have hpen : { s.pen with pulse := none } = s.pen := by rw [← h]
      rw [hpen]
      rfl
    next => rfl
  generalize s.discardPulse.stats = stats at hclosed
  obtain ⟨hcorr, hwaiting⟩ := correlateWaiting_correlated _ (s.discardPulse.closeHistory endTime) rfl
  have hended := foldl_endTasks_ended (endTasks o) (s.discardPulse.closeHistory endTime).frameHits
  have hdir : (s.discardPulse.closeHistory endTime).dir = s.dir := by rw [hclosed]
  have hpen : (s.discardPulse.closeHistory endTime).frameHits.pen = { s.pen with pulse := none, waiting := [] } := by
    rw [show State.pen (State.frameHits _) = _ from hcorr.pen, hwaiting, hclosed]
  exact
    { port := frameEnds_port s endTime o
      hist := hended.framed.hist.trans (hcorr.hist.trans (congrArg State.hist hclosed))
      pen := by
        have htasks := hended.framed.pen
        rw [hpen] at htasks
        exact htasks
      done := congrArg Correlator.frameDone hended.framed.corr
      dir := by
        have htasks := hended.dir
        rw [show State.dir (State.frameHits _) = _ from hcorr.dir, hdir] at htasks
        exact htasks
      coord := hended.coord.trans (hcorr.coord.trans (by rw [hclosed]))
      filt := hended.framed.filt.trans (hcorr.filt.trans (by rw [hclosed]))
      current := fun hm => by
        have hmode : (s.discardPulse.closeHistory endTime).port.mode ≠ .dark := by rw [hclosed]; exact hm
        have hmode' : (s.discardPulse.closeHistory endTime).frameHits.port.mode ≠ .dark := by
          rw [show State.port (State.frameHits _) = _ from hcorr.port]
          exact hmode
        refine (hended.current hmode').trans ((hcorr.lit hmode).trans ?_)
        rw [hclosed]
      answerOut := hended.framed.answerOut.trans (hcorr.answerOut.trans (by rw [hclosed]))
      pending := hended.framed.pending.trans (hcorr.pending.trans (by rw [hclosed])) }

/-! ## The statement about the frame's end -/

/-- Every order of the four blocks' work is commanded by some order operand (log 5). -/
theorem endTasks_onto (tasks : List FrameEndTask) (h : tasks.Perm [.penReckoning, .crossUpdate, .resolverCount, .menuDwell]) :
    ∃ e, endTasks e = tasks := by
  have hall : ∀ a ∈ [FrameEndTask.penReckoning, .crossUpdate, .resolverCount, .menuDwell],
      ∀ b ∈ [FrameEndTask.penReckoning, .crossUpdate, .resolverCount, .menuDwell],
        ∀ c ∈ [FrameEndTask.penReckoning, .crossUpdate, .resolverCount, .menuDwell],
          ∀ d ∈ [FrameEndTask.penReckoning, .crossUpdate, .resolverCount, .menuDwell],
            [a, b, c, d].Perm [.penReckoning, .crossUpdate, .resolverCount, .menuDwell] →
              ∃ x y z, endTasks { cross := x, pen := y, menu := z } = [a, b, c, d] := by decide
  match tasks, h with
  | [], h => exact absurd h.length_eq (by decide)
  | [_], h => exact absurd h.length_eq (by simp)
  | [_, _], h => exact absurd h.length_eq (by simp)
  | [_, _, _], h => exact absurd h.length_eq (by simp)
  | [a, b, c, d], h =>
    obtain ⟨x, y, z, hxyz⟩ := hall a (h.subset (by simp)) b (h.subset (by simp)) c (h.subset (by simp)) d (h.subset (by simp)) h
    exact ⟨_, hxyz⟩
  | _ :: _ :: _ :: _ :: _ :: _, h => exact absurd h.length_eq (by simp)

theorem frameCloses_inFrame {a b : State} (ha : a = s.boundary) (hm : a.port.mode = .inFrame)
    (hb : b = (if a.port.openSeg = none then a else a.setFlag .portProtocol)) (e : FrameEndOrder) :
    s.frameCloses e = (b.frameEnds a.port.frameTime e).enterMode .between := by
  have hsome : (if a.port.openSeg.isSome then a.setFlag .portProtocol else a) = b := by
    rw [hb]
    cases a.port.openSeg <;> rfl
  have hposted : Posted a b := hsome ▸ posted_ite_setFlag _ _ a
  unfold State.frameCloses
  dsimp only
  rw [← ha, if_pos hm, hsome, hposted.port]

/-- Settles O24, by what the frame's end leaves and keeps. -/
theorem frameCloseEndsTheFrame : Obligations.FrameCloseEndsTheFrame := by
  refine ⟨endTasks_onto, ?_⟩
  intro dt e s a b ha hm hb
  have hposted : Posted a b := by
    rw [hb]
    split
    · exact .refl a
    · exact setFlag_posted a _
  have hended := frameEnds_frameEnded b a.port.frameTime e
  have hkept : Kept a (b.frameEnds a.port.frameTime e) := hposted.kept.trans (frameEnds_kept b _ e)
  have hlit : b.port.mode ≠ .dark := by rw [hposted.port, hm]; exact fun h => nomatch h
  refine ⟨_, b.frameEnds a.port.frameTime e, congrArg Host.Outcome.next (frameCloses_inFrame ha hm hb e),
    frameEnds_endsFrame b _ e, rfl, hkept.params, ?_, ?_, ?_, ?_, ?_, hended.done, fun hopen => ?_, ?_, ?_, ?_, ?_, ?_, ?_, ?_, ?_⟩
  · show { (b.frameEnds a.port.frameTime e).port with mode := .between } = _
    rw [hended.port, hposted.port]
  · exact hended.hist.trans (by rw [hposted.hist, hposted.port])
  · exact congrArg Pen.pulse hended.pen
  · exact congrArg Pen.waiting hended.pen
  · exact (congrArg Pen.lastHit hended.pen).trans (by rw [hposted.pen])
  · refine (frameEnds_kept b _ e).flags _ ?_
    rw [hb, if_neg hopen]
    exact setFlag_sets a _
  · exact (congrArg Directory.entries hended.dir).trans (by rw [hposted.dir])
  · exact (congrArg Directory.changes hended.dir).trans (by rw [hposted.dir])
  · exact (congrArg Directory.sweeps hended.dir).trans (by rw [hposted.dir])
  · exact hended.filt.trans (by rw [hposted.filt])
  · exact hended.coord.trans (by rw [hposted.coord])
  · exact (hended.current hlit).trans (by rw [hposted.menu])
  · exact hended.answerOut.trans (by rw [hposted.answerOut])
  · exact hended.pending.trans (by rw [hposted.pending])

/-! ## The entry into DARK (R15) -/

/-- With nothing staged the projected directory is the one in force (R26). -/
theorem projected_of_nothing {x : Directory} (hc : x.changes = []) (hs : x.sweeps = .none) : x.projected = x.entries := by
  unfold Directory.projected
  rw [hc, hs]
  rfl

/-- A task leaves the projected directory as it was (R26). -/
theorem runDarkTask_projected (task : DarkTask) (s : State) : (runDarkTask task s).dir.projected = s.dir.projected := by
  cases task with
  | directory =>
    obtain ⟨-, hchanges, hsweeps⟩ := applyStaged_directed s
    show s.applyStaged.dir.projected = _
    rw [projected_of_nothing hchanges hsweeps, applyStaged_entries]
  | resolver =>
    show (s.loseAttempt .noFrames).dir.projected = _
    rw [(loseAttempt_resolved s _).dir]
    rfl
  | menu =>
    show s.copyStack.dir.projected = _
    rw [(copyStack_posted s).dir]

theorem foldl_darkTasks_projected (tasks : List DarkTask) (s : State) :
    (tasks.foldl (fun t task => runDarkTask task t) s).dir.projected = s.dir.projected := by
  induction tasks generalizing s with
  | nil => rfl
  | cons task rest ih => exact (ih _).trans (runDarkTask_projected task s)

/-- What the entry into DARK reaches, and what it leaves as it was. -/
structure Darkened (s t : State) : Prop where
  port : t.port = { s.port with mode := .dark, absence := 0 }
  hist : t.hist = s.hist
  pen : t.pen = { s.pen with floods := t.pen.floods, muted := t.pen.muted }
  flag : flagSet t.flags .dark = true
  attempt : t.res.attempt = .idle ∨ t.res.attempt = .held
  entries : t.dir.entries = s.dir.projected
  lists : t.dir.changes = [] ∧ t.dir.sweeps = .none
  menu : t.menu.current = t.menu.next ∧ t.menu.sums = [] ∧ t.menu.leading = none ∧ t.menu.dwellCount = 0
  filt : t.filt = s.filt
  answerOut : t.answerOut = s.answerOut
  pending : t.pending = s.pending

theorem enterDark_darkened (s : State) (o : DarkOrder) : Darkened s (s.enterDark o) := by
  have hflag := setFlag_posted { s with port := { s.port with mode := .dark, absence := 0 } } .dark
  have hframed := hflag.framed.trans (foldl_framed runDarkTask_framed (darkTasks o) _)
  have hreaches (task : DarkTask) : task.reaches (s.enterDark o) :=
    foldl_darkTasks_reaches (darkTasks o) (congrArg Port.mode hflag.port) (.inl (mem_darkTasks o task))
  have hlists := hreaches .directory
  have hprojected : (s.enterDark o).dir.projected = s.dir.projected :=
    (foldl_darkTasks_projected (darkTasks o) _).trans (by rw [hflag.dir])
  exact
    { port := enterDark_port s o
      hist := hframed.hist
      pen := hframed.pen
      flag := (foldl_kept runDarkTask runDarkTask_kept (darkTasks o) _).flags _ (setFlag_sets _ _)
      attempt := hreaches .resolver
      entries := by
        obtain ⟨hchanges, hsweeps⟩ := hlists
        rw [← hprojected, projected_of_nothing hchanges hsweeps]
      lists := hlists
      menu := hreaches .menu
      filt := hframed.filt
      answerOut := hframed.answerOut
      pending := hframed.pending }

/-! ## The absence (R15) -/

theorem projected_congr {x y : Directory} (h : y = { x with echoes := y.echoes }) : y.projected = x.projected := by
  rw [h]
  rfl

/-- What the absence timer's expiry leaves the words waiting to be read and the commands as they were. -/
structure SameOutside (s t : State) : Prop where
  answerOut : t.answerOut = s.answerOut
  pending : t.pending = s.pending

theorem SameOutside.trans (h : SameOutside s t) (k : SameOutside t u) : SameOutside s u :=
  ⟨k.answerOut.trans h.answerOut, k.pending.trans h.pending⟩

theorem Correlated.sameOutside (h : Correlated s t) : SameOutside s t := ⟨h.answerOut, h.pending⟩

theorem absenceExpires_sameOutside (s : State) (e : FrameEndOrder) (o : DarkOrder) : SameOutside s (s.absenceExpires e o) := by
  have hdark : ∀ t : State, SameOutside t (t.enterDark o) := fun t =>
    ⟨(enterDark_darkened t o).answerOut, (enterDark_darkened t o).pending⟩
  have hends : ∀ t : State, SameOutside t (t.frameEnds t.port.frameTime e) := fun t =>
    ⟨(frameEnds_frameEnded t _ e).answerOut, (frameEnds_frameEnded t _ e).pending⟩
  have hflush : SameOutside s s.flushFifo := ⟨(flushFifo_handed s).answerOut, (flushFifo_handed s).pending⟩
  unfold State.absenceExpires
  split
  · exact ⟨rfl, rfl⟩
  · exact hdark s
  · exact (hflush.trans (hends _)).trans (hdark _)

theorem fire_sameOutside (s : State) (e : TimedEvent) : SameOutside s (s.fire e) := by
  cases e with
  | qualify =>
    obtain ⟨pen, stats, -, hcorr⟩ := qualify_correlated s
    exact ⟨hcorr.answerOut, hcorr.pending⟩
  | debounce =>
    show SameOutside s s.debounce
    unfold State.debounce
    dsimp only
    split
    · exact ⟨(tipDown_resolved _).answerOut, (tipDown_resolved _).pending⟩
    · exact ⟨(tipUp_resolved _).answerOut, (tipUp_resolved _).pending⟩
    · exact ⟨rfl, rfl⟩
    · exact ⟨rfl, rfl⟩
  | gap n =>
    have hflag := setFlag_posted (s.setReceiver n .hunting) (.frameError n)
    have hflagged : SameOutside s ((s.setReceiver n .hunting).setFlag (.frameError n)) :=
      ⟨hflag.answerOut.trans (setUnit_answerOut _ _ _), hflag.pending.trans (setUnit_pending _ _ _)⟩
    show SameOutside s (s.failFrame n .short)
    unfold State.failFrame
    dsimp only
    split
    · exact hflagged.trans ⟨placeReply_answerOut _ _ _, placeReply_pending _ _ _⟩
    · exact hflagged
  | absence => exact absenceExpires_sameOutside s _ _

theorem advance_sameOutside (s : State) (d : Nat) : SameOutside s (s.advance d) :=
  advance_keeps (P := SameOutside s) (fun _ _ h => h.trans ⟨rfl, rfl⟩) (fun _ _ h => h.trans (fire_sameOutside _ _)) d ⟨rfl, rfl⟩

/-- The absence timer's expiry, where the timer runs (log 3). -/
theorem exec_absenceTimerExpiry (hm : s.port.mode ≠ .dark) (e : FrameEndOrder) (o : DarkOrder) :
    exec (.absenceTimerExpiry e o) s =
      .next ((s.advance (s.port.ta * Config.ticksPerMs - s.port.absence)).absenceExpires e o) := by
  have hdue := due_absence_of_running hm
  simp only [exec, execAbsenceTimerExpiry, State.runTo, hdue, advance_due_absence hdue, decide_true, if_true]

theorem exec_absenceTimerExpiry_dark (hm : s.port.mode = .dark) (e : FrameEndOrder) (o : DarkOrder) :
    exec (.absenceTimerExpiry e o) s = .next s := by
  have hdue : s.due .absence = none := by simp only [State.due, hm]
  simp only [exec, execAbsenceTimerExpiry, State.runTo, hdue, Bool.false_eq_true, if_false]

/-- The ticks until the expiry leave the port in its mode. -/
theorem advance_to_absence_mode (hm : s.port.mode ≠ .dark) :
    (s.advance (s.port.ta * Config.ticksPerMs - s.port.absence)).port.mode = s.port.mode := by
  rcases Nat.eq_zero_or_pos (s.port.ta * Config.ticksPerMs - s.port.absence) with h | h
  · rw [h, advance_zero]
  · rw [advance_of_pos s h, advanceBy_port 5 (due_absence_of_running hm) (Nat.le_refl _), port_age_running hm]

/-- Settles O25, by what the entry into DARK reaches and, in a frame, by what its end leaves. -/
theorem absenceExpiryEntersDark : Obligations.AbsenceExpiryEntersDark := by
  intro e o s u
  refine ⟨fun hm => exec_absenceTimerExpiry_dark hm e o, fun hm hu => ⟨_, exec_absenceTimerExpiry hm e o, ?_⟩⟩
  have hmode : u.port.mode = s.port.mode := hu ▸ advance_to_absence_mode hm
  have houtside : SameOutside s u := hu ▸ advance_sameOutside s _
  rw [← hu]
  cases hs : s.port.mode with
  | dark => exact absurd hs hm
  | between =>
    have hexpires : u.absenceExpires e o = u.enterDark o := by
      unfold State.absenceExpires
      rw [hmode, hs]
    have hdark := enterDark_darkened u o
    rw [hexpires]
    exact ⟨(enterDark_kept u o).params, fun _ => ⟨enterDark_entersDark u o, hdark.port, hdark.hist⟩, fun h => (nomatch h),
      hdark.flag, hdark.attempt, hdark.entries, hdark.lists.1, hdark.lists.2, hdark.menu.1, hdark.menu.2.1, hdark.menu.2.2.1,
      hdark.menu.2.2.2, hdark.filt, hdark.pending.trans houtside.pending, hdark.answerOut.trans houtside.answerOut⟩
  | inFrame =>
    have hexpires : u.absenceExpires e o = (u.flushFifo.frameEnds u.port.frameTime e).enterDark o := by
      unfold State.absenceExpires
      rw [hmode, hs]
      dsimp only
      rw [flushFifo_frameTime]
    have hflush := flushFifo_handed u
    have hended := frameEnds_frameEnded u.flushFifo u.port.frameTime e
    have hdark := enterDark_darkened (u.flushFifo.frameEnds u.port.frameTime e) o
    have hkept := (hflush.kept.trans (frameEnds_kept _ u.port.frameTime e)).trans (enterDark_kept _ o)
    rw [hexpires]
    refine ⟨hkept.params, fun h => (nomatch h), fun _ => ⟨⟨_, frameEnds_endsFrame _ _ e, enterDark_entersDark _ o⟩, ?_, ?_, ?_, ?_⟩,
      hdark.flag, hdark.attempt, ?_, hdark.lists.1, hdark.lists.2, hdark.menu.1, hdark.menu.2.1, hdark.menu.2.2.1,
      hdark.menu.2.2.2, ?_, ?_, ?_⟩
    · rw [hdark.port, hended.port]
    · exact hdark.hist.trans hended.hist
    · exact (congrArg Pen.pulse hdark.pen).trans (congrArg Pen.pulse hended.pen)
    · exact (congrArg Pen.waiting hdark.pen).trans (congrArg Pen.waiting hended.pen)
    · rw [hdark.entries, projected_congr hended.dir, projected_congr hflush.dir]
    · exact hdark.filt.trans (hended.filt.trans hflush.filt)
    · exact hdark.pending.trans (hended.pending.trans (hflush.pending.trans houtside.pending))
    · exact hdark.answerOut.trans (hended.answerOut.trans (hflush.answerOut.trans houtside.answerOut))

end Sys2Proof.Machine
end

section
/-! PROOFS. The frame's start (R8, R18, R34, R37, R39, R46, R136; O23): the directory's stage, the hand-over and the menu's stage, and the
statement. -/

namespace Sys2Proof.Machine

variable {s t u : State}

/-! ## A lost attempt (R103 to R106) -/

/-- The resolver's state but for its mode, the links, the flags and the counters may have changed, and nothing else. -/
structure Attempted (s t : State) : Prop where
  same : t = { s with res := t.res, links := t.links, flags := t.flags, stats := t.stats }
  mode : (t.res.mode, t.res.modeOwner) = (s.res.mode, s.res.modeOwner)

theorem Attempted.refl (s : State) : Attempted s s := ⟨rfl, rfl⟩

theorem Attempted.trans (h : Attempted s t) (k : Attempted t u) : Attempted s u where
  same := by
    have hsame := k.same
    rw [h.same] at hsame
    exact hsame
  mode := k.mode.trans h.mode

theorem Posted.attempted (h : Posted s t) : Attempted s t where
  same := by
    rw [h.res, h.stats]
    exact h.same
  mode := by rw [h.res]

theorem attempted_of_res (s : State) {r : Resolver} (h : (r.mode, r.modeOwner) = (s.res.mode, s.res.modeOwner)) (st : Stats) :
    Attempted s { s with res := r, stats := st } := ⟨rfl, h⟩

theorem lostOutcome_attempted (s : State) (reason : PickReason) : Attempted s (s.lostOutcome reason) :=
  (post_posted _ _ _).attempted.trans (attempted_of_res _ rfl _)

theorem tipDownIdle_attempted (s : State) : Attempted s s.tipDownIdle := by
  have hsetUp : Attempted s s.setUpAttempt := ⟨rfl, rfl⟩
  unfold State.tipDownIdle
  split
  · exact .refl s
  · dsimp only
    split
    · exact (hsetUp.trans (lostOutcome_attempted _ _)).trans ⟨rfl, rfl⟩
    · exact hsetUp

theorem afterOutcome_attempted (s : State) : Attempted s s.afterOutcome := by
  have hend : ∀ next, Attempted s (s.endAttempt next) := fun _ => ⟨rfl, rfl⟩
  unfold State.afterOutcome
  split
  · exact hend _
  · split
    · exact (hend _).trans (tipDownIdle_attempted _)
    · exact hend _

theorem loseAttempt_attempted (s : State) (reason : PickReason) : Attempted s (s.loseAttempt reason) := by
  unfold State.loseAttempt
  split
  · exact (lostOutcome_attempted s _).trans (afterOutcome_attempted _)
  · exact (lostOutcome_attempted s _).trans (afterOutcome_attempted _)
  · exact .refl s
  · exact .refl s

/-- What follows an outcome while the port is not DARK leaves an empty tally and loses nothing more (R98, R103). -/
theorem afterOutcome_lit (h : s.port.mode ≠ .dark) :
    s.afterOutcome.res.tally = [] ∧ s.afterOutcome.stats.lost = s.stats.lost := by
  unfold State.afterOutcome
  split
  · exact ⟨rfl, rfl⟩
  · split
    · unfold State.tipDownIdle
      split
      · exact ⟨rfl, rfl⟩
      · dsimp only
        rw [if_neg (show (s.endAttempt .idle).port.mode ≠ .dark from h)]
        exact ⟨rfl, rfl⟩
    · exact ⟨rfl, rfl⟩

theorem lostOutcome_lost (s : State) (reason : PickReason) : (s.lostOutcome reason).stats.lost = countUp s.stats.lost :=
  congrArg (fun st : Stats => countUp st.lost) (post_posted _ _ _).stats

/-- An attempt lost while the port is not DARK is counted, and its tally is emptied (R103, R119). -/
theorem loseAttempt_lit (reason : PickReason) (h : s.port.mode ≠ .dark)
    (ha : s.res.attempt = .gathering ∨ s.res.attempt = .closing) :
    (s.loseAttempt reason).res.tally = [] ∧ (s.loseAttempt reason).stats.lost = countUp s.stats.lost := by
  have hmode : (s.lostOutcome reason).port.mode ≠ .dark := by rw [(lostOutcome_resolved s reason).port]; exact h
  have heq : s.loseAttempt reason = (s.lostOutcome reason).afterOutcome := by
    unfold State.loseAttempt
    rcases ha with ha | ha <;> rw [ha]
  obtain ⟨htally, hlost⟩ := afterOutcome_lit hmode
  rw [heq]
  exact ⟨htally, hlost.trans (lostOutcome_lost s reason)⟩

theorem loseAttempt_of_none (reason : PickReason) (h : ¬ (s.res.attempt = .gathering ∨ s.res.attempt = .closing)) :
    s.loseAttempt reason = s := by
  unfold State.loseAttempt
  cases ha : s.res.attempt with
  | gathering => exact absurd (.inl ha) h
  | closing => exact absurd (.inr ha) h
  | idle => rfl
  | held => rfl

/-! ## The withdrawn set handed on (R39, R110, R144) -/

theorem withdraw_menu (m : Menu) (segs : List Nat) :
    m.withdraw segs =
      { m with
        leading := m.leading.filter (fun k => k ∉ segs)
        dwellCount := if m.leading.any (fun k => k ∈ segs) then 0 else m.dwellCount
        latched := m.latched.filter (fun k => k ∉ segs) } := by
  unfold Menu.withdraw
  cases m.leading <;> cases m.latched <;> simp [Option.filter_some]

theorem handWithdrawn_eq (s : State) (atStart : Bool) {kept : List TallyEntry}
    (hkept : kept = s.res.tally.filter (fun k => k.key.seg ∉ s.dir.withdrawn)) :
    s.handWithdrawn atStart =
      { s with
        res :=
          { s.res with
            tally := kept
            withdrawn :=
              s.res.withdrawn
                || decide (atStart = true ∧ (s.res.attempt = .gathering ∨ s.res.attempt = .closing) ∧
                    kept.length < s.res.tally.length) }
        menu :=
          { s.menu with
            leading := s.menu.leading.filter (fun k => k ∉ s.dir.withdrawn)
            dwellCount := if s.menu.leading.any (fun k => k ∈ s.dir.withdrawn) then 0 else s.menu.dwellCount
            latched := s.menu.latched.filter (fun k => k ∉ s.dir.withdrawn) } } := by
  have hfilter : s.res.tally.filter (fun e => !s.dir.withdrawn.contains e.key.seg) = kept := by
    rw [hkept]
    refine List.filter_congr fun e _ => ?_
    by_cases h : e.key.seg ∈ s.dir.withdrawn <;> simp [h]
  have hle : kept.length ≤ s.res.tally.length := hkept ▸ List.length_filter_le _ _
  have hmarks : (atStart && (s.res.attempt == .gathering || s.res.attempt == .closing) && kept.length != s.res.tally.length) =
      decide (atStart = true ∧ (s.res.attempt = .gathering ∨ s.res.attempt = .closing) ∧ kept.length < s.res.tally.length) := by
    rw [Bool.eq_iff_iff]
    simp only [Bool.and_eq_true, Bool.or_eq_true, beq_iff_eq, bne_iff_ne, decide_eq_true_eq, and_assoc]
    exact and_congr_right fun _ => and_congr_right fun _ => ⟨fun h => Nat.lt_of_le_of_ne hle h, fun h => Nat.ne_of_lt h⟩
  unfold State.handWithdrawn Resolver.withdraw
  dsimp only
  rw [withdraw_menu, hfilter, hmarks]

/-! ## The directory's stage (R34, R37, R46) -/

theorem take_echoes (x : Directory) (entries : Dir) (freed touched : List Nat) {e : Echo}
    (h : e ∈ (x.take entries freed touched).echoes) : e ∈ x.echoes := (List.mem_filter.1 h).1

theorem applyChange_echoes (s : State) (c : Change) {e : Echo} (h : e ∈ (s.applyChange c).dir.echoes) : e ∈ s.dir.echoes := by
  unfold State.applyChange at h
  dsimp only at h
  split at h
  · exact take_echoes _ _ _ _ h
  · exact take_echoes _ _ _ _ h

theorem applyListed_echoes (s : State) (c : Change) {e : Echo} (h : e ∈ (s.applyListed c).dir.echoes) : e ∈ s.dir.echoes := by
  unfold State.applyListed at h
  split at h
  · exact applyChange_echoes s c h
  · rw [(post_posted _ _ _).dir, (setFlag_posted _ _).dir] at h
    exact h

/-- The staged work ends echoes and begins none (R21). -/
theorem applyStaged_echoes (s : State) {e : Echo} (h : e ∈ s.applyStaged.dir.echoes) : e ∈ s.dir.echoes := by
  have hlist : ∀ (l : List Change) (t : State), e ∈ (l.foldl State.applyListed t).dir.echoes → e ∈ t.dir.echoes := by
    intro l
    induction l with
    | nil => exact fun t ht => ht
    | cons c rest ih => exact fun t ht => applyListed_echoes t c (ih _ ht)
  have hsweep : ∀ (t : State) (n : Link), e ∈ (t.applySweep n).dir.echoes → e ∈ t.dir.echoes := fun t n ht =>
    take_echoes _ _ _ _ ht
  unfold State.applyStaged at h
  have hswept := hlist _ _ h
  dsimp only at hswept
  split at hswept
  · have hswept' := hsweep _ _ hswept
    split at hswept'
    · exact hsweep _ _ hswept'
    · exact hswept'
  · split at hswept
    · exact hsweep _ _ hswept
    · exact hswept

theorem applyStaged_of_nothing (hc : s.dir.changes = []) (hs : s.dir.sweeps = .none) :
    s.applyStaged.dir.echoes = s.dir.echoes := by
  unfold State.applyStaged
  rw [hc, hs]
  rfl

/-- The view that a change sets, if it is a VIEW_SET. -/
def ChangeOp.viewOf : ChangeOp → Option View
  | .view v => some v
  | _ => none

/-- A listed change sets the view if it is a VIEW_SET, which is never skipped (R34, R38). -/
theorem applyListed_view_eq (s : State) (c : Change) : (s.applyListed c).coord.view = c.op.viewOf.getD s.coord.view := by
  have hposted : ∀ x, ((s.setFlag .changeSkipped).post (.single c.issuer) x).coord.view = s.coord.view := fun x => by
    rw [(post_posted _ _ _).coord, (setFlag_posted _ _).coord]
  unfold State.applyListed State.applyChange
  cases hop : c.op with
  | view v => rfl
  | _ =>
    split
    · rfl
    · exact hposted _

/-- The view in force is the last one listed (R34). -/
theorem applyStaged_view_eq (s : State) :
    s.applyStaged.coord.view = (s.dir.changes.filterMap (fun c => c.op.viewOf)).getLast?.getD s.coord.view := by
  have hlist : ∀ (l : List Change) (t : State),
      (l.foldl State.applyListed t).coord.view = (l.filterMap (fun c => c.op.viewOf)).getLast?.getD t.coord.view := by
    intro l
    induction l with
    | nil => exact fun t => rfl
    | cons c rest ih =>
      intro t
      rw [List.foldl_cons, ih, applyListed_view_eq]
      cases hv : c.op.viewOf with
      | none => simp only [List.filterMap_cons, hv, Option.getD_none]
      | some v => simp only [List.filterMap_cons, hv, List.getLast?_cons, Option.getD_some]
  unfold State.applyStaged
  dsimp only
  rw [hlist]
  split <;> split <;> rfl

/-! ## The stages in their orders (log 5) -/

/-- What the menu controller's frame-start work leaves as it was. -/
theorem menuFrameStart_posted (s : State) :
    Posted { s with menu := { s.menu with current := s.menu.next, sums := [] } } s.menuFrameStart := by
  have hcopy := copyStack_posted s
  have hmenu := copyStack_menu s
  refine ⟨?_, hcopy.unit, hcopy.rate, hcopy.flags⟩
  unfold State.menuFrameStart
  dsimp only
  rw [hmenu]
  exact congrArg (fun t : State => { t with menu := { s.menu with current := s.menu.next, sums := [] } }) hcopy.same

/-- The part of the menu controller's state that its frame-start work sets. -/
def Menu.stacks (m : Menu) : List (Fin 15) × List (Fin 15) × List FrameSum := (m.current, m.next, m.sums)

theorem handStart_stacks (s : State) (v : Bool) : (s.handStart v).menu.stacks = s.menu.stacks := by
  have hhand : (s.handWithdrawn true).menu.stacks = s.menu.stacks := rfl
  unfold State.handStart
  dsimp only
  split
  · rw [show (State.loseAttempt _ .viewChanged).menu = _ from congrArg State.menu (loseAttempt_attempted _ _).same]
    exact hhand
  · exact hhand

theorem handStart_dir (s : State) (v : Bool) : (s.handStart v).dir = s.dir := by
  unfold State.handStart
  dsimp only
  split
  · exact (congrArg State.dir (loseAttempt_attempted _ _).same :)
  · rfl

theorem handStart_coord (s : State) (v : Bool) : (s.handStart v).coord = s.coord := by
  unfold State.handStart
  dsimp only
  split
  · exact (congrArg State.coord (loseAttempt_attempted _ _).same :)
  · rfl

/-- What the frame-start work leaves as it was. -/
structure Begun (s t : State) : Prop where
  port : t.port = s.port
  hist : t.hist = s.hist
  pen : t.pen = s.pen
  corr : t.corr = s.corr
  filt : t.filt = s.filt
  cross : t.cross = s.cross
  answerOut : t.answerOut = s.answerOut
  pending : t.pending = s.pending

theorem Begun.trans (h : Begun s t) (k : Begun t u) : Begun s u :=
  ⟨k.port.trans h.port, k.hist.trans h.hist, k.pen.trans h.pen, k.corr.trans h.corr, k.filt.trans h.filt,
    k.cross.trans h.cross, k.answerOut.trans h.answerOut, k.pending.trans h.pending⟩

theorem menuFrameStart_begun (s : State) : Begun s s.menuFrameStart := by
  have h := menuFrameStart_posted s
  exact ⟨h.port, h.hist, h.pen, h.corr, h.filt, h.cross, h.answerOut, h.pending⟩

theorem directoryStart_begun (s : State) : Begun s s.directoryStart := by
  have h := (applyStaged_directed s).1
  exact ⟨h.port, h.hist, h.pen, h.corr, h.filt, h.cross, h.answerOut, h.pending⟩

theorem handStart_begun (s : State) (v : Bool) : Begun s (s.handStart v) := by
  have hhand : Begun s (s.handWithdrawn true) := ⟨rfl, rfl, rfl, rfl, rfl, rfl, rfl, rfl⟩
  have hlose : ∀ t : State, Begun t (t.loseAttempt .viewChanged) := fun t => by
    have h := loseAttempt_resolved t .viewChanged
    exact ⟨h.port, h.hist, h.pen, h.corr, h.filt, h.cross, h.answerOut, h.pending⟩
  unfold State.handStart
  dsimp only
  split
  · exact hhand.trans (hlose _)
  · exact hhand

theorem startWork_begun (s : State) (o : FrameStartOrder) : Begun s (s.startWork o) := by
  cases o with
  | menuFirst => exact ((menuFrameStart_begun s).trans (directoryStart_begun _)).trans (handStart_begun _ _)
  | menuBetween => exact ((directoryStart_begun s).trans (menuFrameStart_begun _)).trans (handStart_begun _ _)
  | menuLast => exact ((directoryStart_begun s).trans (handStart_begun _ _)).trans (menuFrameStart_begun _)

theorem menuFrameStart_stacks (s : State) : s.menuFrameStart.menu.stacks = (s.menu.next, s.menu.next, []) := by
  rw [(menuFrameStart_posted s).menu]
  rfl

theorem directoryStart_menu (s : State) : s.directoryStart.menu = s.menu := (applyStaged_directed s).1.menu

/-- In every order the menu controller's work is done once. -/
theorem startWork_stacks (s : State) (o : FrameStartOrder) : (s.startWork o).menu.stacks = (s.menu.next, s.menu.next, []) := by
  cases o with
  | menuFirst =>
    show (State.handStart _ _).menu.stacks = _
    rw [handStart_stacks, directoryStart_menu, menuFrameStart_stacks]
  | menuBetween =>
    show (State.handStart _ _).menu.stacks = _
    rw [handStart_stacks, menuFrameStart_stacks, directoryStart_menu]
  | menuLast =>
    have hnext : ∀ t : State, t.menu.stacks.2.1 = t.menu.next := fun _ => rfl
    show (State.menuFrameStart _).menu.stacks = _
    rw [menuFrameStart_stacks, ← hnext, handStart_stacks, directoryStart_menu]
    rfl

/-- In every order the directory's work is done once, on its own state. -/
theorem startWork_dir (s : State) (o : FrameStartOrder) :
    ∃ y : State, y.dir = s.dir ∧ y.coord = s.coord ∧ (s.startWork o).dir = y.directoryStart.dir ∧
      (s.startWork o).coord = y.directoryStart.coord := by
  have hmenu := fun t : State => (menuFrameStart_posted t).dir
  have hmenu' := fun t : State => (menuFrameStart_posted t).coord
  cases o with
  | menuFirst => exact ⟨s.menuFrameStart, hmenu s, hmenu' s, handStart_dir _ _, handStart_coord _ _⟩
  | menuBetween =>
    exact ⟨s, rfl, rfl, (handStart_dir _ _).trans (hmenu _), (handStart_coord _ _).trans (hmenu' _)⟩
  | menuLast => exact ⟨s, rfl, rfl, (hmenu _).trans (handStart_dir _ _), (hmenu' _).trans (handStart_coord _ _)⟩

/-- In every order the hand-over is made once, with the withdrawn set of the directory's work. -/
theorem startWork_res (s : State) (o : FrameStartOrder) :
    ∃ z : State, z.res = s.res ∧ z.stats = s.stats ∧ z.port = s.port ∧ z.dir.withdrawn = (s.startWork o).dir.withdrawn ∧
      (s.startWork o).res = (z.handStart (s.dir.changes.any (fun c => c.op.isView))).res ∧
        (s.startWork o).stats = (z.handStart (s.dir.changes.any (fun c => c.op.isView))).stats := by
  have hmenu := menuFrameStart_posted
  have hdir := fun t : State => (applyStaged_directed t).1
  have hhand := fun (t : State) (v : Bool) => congrArg Directory.withdrawn (handStart_dir t v).symm
  cases o with
  | menuFirst =>
    exact ⟨s.menuFrameStart.directoryStart, (hdir _).res.trans (hmenu s).res, (hdir _).stats.trans (hmenu s).stats,
      (hdir _).port.trans (hmenu s).port, hhand _ _, rfl, rfl⟩
  | menuBetween =>
    exact ⟨s.directoryStart.menuFrameStart, (hmenu _).res.trans (hdir s).res, (hmenu _).stats.trans (hdir s).stats,
      (hmenu _).port.trans (hdir s).port, hhand _ _, rfl, rfl⟩
  | menuLast =>
    refine ⟨s.directoryStart, (hdir s).res, (hdir s).stats, (hdir s).port,
      (hhand _ (s.dir.changes.any (fun c => c.op.isView))).trans ?_, (hmenu _).res, (hmenu _).stats⟩
    exact congrArg Directory.withdrawn (hmenu _).dir.symm

/-! ## The hand-over's effect on the attempt (R34, R104, R110) -/

theorem handWithdrawn_tally (s : State) {k : TallyEntry} (h : k ∈ (s.handWithdrawn true).res.tally) :
    k.key.seg ∉ s.dir.withdrawn := by
  rw [handWithdrawn_eq s true rfl] at h
  simpa using (List.mem_filter.1 h).2

theorem handStart_mode (s : State) (v : Bool) :
    ((s.handStart v).res.mode, (s.handStart v).res.modeOwner) = (s.res.mode, s.res.modeOwner) := by
  unfold State.handStart
  dsimp only
  split
  · exact (loseAttempt_attempted _ _).mode
  · rfl

theorem handStart_frames (s : State) (v : Bool) : (s.handStart v).stats.frames = s.stats.frames := by
  unfold State.handStart
  dsimp only
  split
  · exact (loseAttempt_resolved _ _).counters.1
  · rfl

/-- What the tally keeps is not withdrawn. -/
theorem handStart_tally (s : State) (v : Bool) (hm : s.port.mode ≠ .dark) :
    ∀ k ∈ (s.handStart v).res.tally, k.key.seg ∉ s.dir.withdrawn := by
  intro k hk
  unfold State.handStart at hk
  dsimp only at hk
  split at hk
  · by_cases ha : (s.handWithdrawn true).res.attempt = .gathering ∨ (s.handWithdrawn true).res.attempt = .closing
    · rw [(loseAttempt_lit _ (show (s.handWithdrawn true).port.mode ≠ .dark from hm) ha).1] at hk
      exact nomatch hk
    · rw [loseAttempt_of_none _ ha] at hk
      exact handWithdrawn_tally s hk
  · exact handWithdrawn_tally s hk

/-- A view change loses the attempt. -/
theorem handStart_viewChanged (s : State) (hm : s.port.mode ≠ .dark)
    (ha : s.res.attempt = .gathering ∨ s.res.attempt = .closing) :
    (s.handStart true).res.tally = [] ∧ (s.handStart true).stats.lost = countUp s.stats.lost :=
  loseAttempt_lit (s := s.handWithdrawn true) .viewChanged hm ha

/-! ## The statement -/

theorem any_isView_iff (changes : List Change) {views : List View}
    (hv : views = changes.filterMap (fun c => match c.op with | .view v => some v | _ => none)) :
    changes.any (fun c => c.op.isView) = true ↔ views ≠ [] := by
  rw [hv, ne_eq, List.filterMap_eq_nil_iff, List.any_eq_true]
  constructor
  · rintro ⟨c, hc, hview⟩ hnone
    have hcnone := hnone c hc
    cases hop : c.op <;> simp [hop, ChangeOp.isView] at hview hcnone
  · intro h
    refine Classical.byContradiction fun hno => ?_
    refine h fun c hc => ?_
    cases hop : c.op with
    | view v => exact absurd ⟨c, hc, by rw [hop]; rfl⟩ hno
    | _ => rfl

/-- What the start of a frame reaches and leaves (R8, R18, R34, R37, R39, R46, R104, R110, R136). -/
theorem frameStarts_begins (a : State) (seq : Byte) (o : FrameStartOrder) {views : List View}
    (hviews : views = a.dir.changes.filterMap (fun c => match c.op with | .view v => some v | _ => none)) :
    ∃ t, t = a.frameStarts seq o ∧ t.port =
        { a.port with
          mode := .inFrame, resync := false, openSeg := none, lastSeq := seq, frameTime := 0, absence := 0
          answers := frameAnswer a.cross.shown seq a.cross.x a.cross.y } ∧
      t.hist =
        { a.hist with
          ring := [], isOpen := true, openSeg := none, elementCount := 0, gapOpen := false, wrapped := false } ∧
        t.pen = { a.pen with lastHit := none, hitCount := 0, flooded := false } ∧
          t.corr = { a.corr with newestStart := none, frameDone := false, frame := a.corr.frame + 1 } ∧
            t.dir.entries = a.dir.projected ∧ t.dir.changes = [] ∧ t.dir.sweeps = .none ∧
              t.dir.shownStyle = a.dir.echoStyle ∧ (∀ k ∈ t.dir.shown, ∃ x ∈ a.dir.echoes, x.seg = k) ∧
                (a.dir.changes = [] → a.dir.sweeps = .none → t.dir.shown = a.dir.echoes.map (fun x => x.seg)) ∧
                t.menu.current = a.menu.next ∧ t.menu.next = a.menu.next ∧ t.menu.sums = [] ∧
                  t.cross = a.cross ∧ t.filt = a.filt ∧ t.stats.frames = countUp a.stats.frames ∧
                    t.coord.view = views.getLast?.getD a.coord.view ∧
                      (views = [] → t.res.attempt = a.res.attempt ∧ t.stats.lost = a.stats.lost) ∧
                        (views ≠ [] → a.res.attempt = .gathering ∨ a.res.attempt = .closing →
                          t.stats.lost = countUp a.stats.lost ∧ t.res.tally = []) ∧
                          (∀ k ∈ t.res.tally, k.key.seg ∉ t.dir.withdrawn) ∧
                            (t.res.mode, t.res.modeOwner) = (a.res.mode, a.res.modeOwner) ∧
                              t.answerOut = a.answerOut ∧ t.pending = a.pending := by
  have hbegun := startWork_begun (a.beginFrame seq) o
  have hstacks := startWork_stacks (a.beginFrame seq) o
  obtain ⟨y, hydir, hycoord, hdir, hcoord⟩ := startWork_dir (a.beginFrame seq) o
  obtain ⟨z, hzres, hzstats, hzport, hzwithdrawn, hres, hstats⟩ := startWork_res (a.beginFrame seq) o
  have hany := any_isView_iff a.dir.changes hviews
  have hlit : z.port.mode ≠ .dark := by rw [hzport]; exact fun h => nomatch h
  refine ⟨_, rfl, ?_, hbegun.hist, hbegun.pen, hbegun.corr, ?_, ?_, ?_, ?_, ?_, ?_, congrArg (fun m => m.1) hstacks,
    congrArg (fun m => m.2.1) hstacks, congrArg (fun m => m.2.2) hstacks, hbegun.cross, hbegun.filt, ?_, ?_, ?_, ?_, ?_, ?_,
    hbegun.answerOut, hbegun.pending⟩
  all_goals (simp only [State.frameStarts, State.answer])
  · rw [hbegun.port, hbegun.cross]
    rfl
  · rw [hdir]
    refine (applyStaged_entries y).trans ?_
    rw [hydir]
    rfl
  · rw [hdir]
    exact (applyStaged_directed y).2.1
  · rw [hdir]
    exact (applyStaged_directed y).2.2
  · rw [hdir]
    refine (congrArg Directory.echoStyle (applyStaged_directed y).1.dirSame).trans ?_
    rw [hydir]
    rfl
  · rw [hdir]
    intro k hk
    obtain ⟨x, hx, rfl⟩ := List.mem_map.1 hk
    have hecho := applyStaged_echoes y hx
    rw [hydir] at hecho
    exact ⟨x, hecho, rfl⟩
  · intro hchanges hsweeps
    rw [hdir]
    refine (congrArg (List.map _) (applyStaged_of_nothing ?_ ?_)).trans ?_
    · rw [hydir]
      exact hchanges
    · rw [hydir]
      exact hsweeps
    · rw [hydir]
      rfl
  · rw [hstats, handStart_frames, hzstats]
    rfl
  · rw [hcoord, hviews]
    refine (applyStaged_view_eq y).trans ?_
    rw [hydir, hycoord]
    refine congrArg (fun l : List View => l.getLast?.getD a.coord.view) (congrArg (fun f => List.filterMap f a.dir.changes) ?_)
    funext c
    cases c.op <;> rfl
  · intro hnil
    have hv : a.dir.changes.any (fun c => c.op.isView) = false := Bool.eq_false_iff.2 (fun h => hany.1 h hnil)
    rw [hres, hstats, show (a.beginFrame seq).dir.changes = a.dir.changes from rfl, hv]
    show z.res.attempt = _ ∧ z.stats.lost = _
    rw [hzres, hzstats]
    exact ⟨rfl, rfl⟩
  · intro hcons ha
    rw [hres, hstats, show (a.beginFrame seq).dir.changes = a.dir.changes from rfl, hany.2 hcons]
    have hlost := handStart_viewChanged z hlit (by rw [hzres]; exact ha)
    rw [hzstats] at hlost
    exact hlost.symm
  · rw [hres, ← hzwithdrawn]
    exact handStart_tally z _ hlit
  · rw [hres, handStart_mode, hzres]
    rfl

theorem truncate_eq {a b : State} (e : FrameEndOrder)
    (ha : a = (if b.port.mode = .inFrame then (b.setFlag .portProtocol).frameEnds b.port.frameTime e else b)) :
    b.truncate e = a := ha.symm

/-- Settles O23, by the truncation of a running frame and the stages of the new one's start. -/
theorem frameOpenStartsAFrame : Obligations.FrameOpenStartsAFrame := by
  refine ⟨?_, fun s atStart kept hkept => handWithdrawn_eq s atStart hkept⟩
  intro dt seq e o s b a views hb ha hviews
  have hkept : Kept b a := by
    rw [ha]
    split
    · exact (setFlag_posted b _).kept.trans (frameEnds_kept _ _ e)
    · exact .refl b
  obtain ⟨t, ht, hfacts⟩ := frameStarts_begins a seq o hviews
  have hopens : exec (.frameOpen dt seq e o) s = .next t := by
    rw [ht, ← truncate_eq e ha, hb]
    rfl
  refine ⟨fun hm => ?_, t, hopens, ?_, ?_, fun hm => ?_, hfacts⟩
  · rw [ha, if_pos hm]
    exact frameEnds_endsFrame _ _ e
  · rw [ht]
    exact frameStarts_startsFrame a seq o
  · rw [ht]
    exact hkept.params.trans (frameStarts_kept a seq o).params
  · rw [ht]
    refine (frameStarts_kept a seq o).flags _ ?_
    rw [ha, if_pos hm]
    exact (frameEnds_kept _ _ e).flags _ (setFlag_sets b _)

end Sys2Proof.Machine
end

section
/-! PROOFS. The stroke history (R4, R6, R7, R49 to R58; O27, O28, O29). -/

namespace Sys2Proof.Machine

/-! ## The ring (R51, R53, R56) -/

/-- The end time given to the newest record alone. -/
theorem closeNewest_append (t : Nat) (init : List HistoryRecord) (last : HistoryRecord) :
    closeNewest t (init ++ [last]) = init ++ [if last.stop = none then { last with stop := some t } else last] := by
  induction init with
  | nil => simp only [List.nil_append, closeNewest, Option.isNone_iff_eq_none]
  | cons r rest ih =>
    obtain ⟨q, l, hl⟩ : ∃ q l, rest ++ [last] = q :: l := by cases rest <;> exact ⟨_, _, rfl⟩
    rw [List.cons_append, List.cons_append, ← ih, hl]
    rfl

/-- The ring with its newest record ended, known by its last record. -/
theorem closeNewest_eq {t : Nat} {ring old : List HistoryRecord} (hnil : ring = [] → old = [])
    (happ : ∀ init last, ring = init ++ [last] → old = init ++ [if last.stop = none then { last with stop := some t } else last]) :
    closeNewest t ring = old := by
  rcases List.eq_nil_or_concat ring with rfl | ⟨init, last, rfl⟩
  · exact (hnil rfl).symm
  · rw [List.concat_eq_append] at happ ⊢
    rw [closeNewest_append, happ init last rfl]

section History

variable {h : History}

theorem enter_eq (r : HistoryRecord) :
    h.enter r =
      { h with
        ring :=
          if h.ring.length < Config.ringSize then closeNewest r.start h.ring ++ [r]
          else (closeNewest r.start h.ring).tail ++ [r]
        wrapped := if h.ring.length < Config.ringSize then h.wrapped else true } := by
  unfold History.enter
  dsimp only
  rw [closeNewest_length]
  split <;> rfl

/-- The record entered is the newest. -/
theorem enter_ring (r : HistoryRecord) : ∃ init, (h.enter r).ring = init ++ [r] := by
  rw [enter_eq]
  dsimp only
  split
  · exact ⟨_, rfl⟩
  · exact ⟨_, rfl⟩

theorem closeGap_of_none (hg : h.gapOpen = false) (stamp : Nat) : h.closeGap stamp = h := by
  unfold History.closeGap
  rw [hg]
  rfl

theorem closeGap_of_open (hg : h.gapOpen = true) (stamp : Nat) :
    h.closeGap stamp = { h with ring := closeNewest stamp h.ring, gapOpen := false } := if_pos hg

/-- An entry that carries no gap start and no lost mark, taken while no GAP is open, is applied (R50, R51). -/
theorem takeEntry_applied (hg : h.gapOpen = false) (record : QueuedRecord) (stamp : Nat) :
    h.takeEntry { record := record, stamp := stamp, lost := false, gapStart := none } = h.applyRecord record stamp :=
  congrArg (fun k : History => k.applyRecord record stamp) (closeGap_of_none hg stamp)

/-- An element index counts the strokes of the open segment up to its limit (R52). -/
theorem vectorRecord_eq (beam : Bool) (p : Stroke) (stamp : Nat) (hc : h.elementCount ≤ 4096) :
    h.vectorRecord beam p stamp =
      { kind := if beam then .vector else .move
        seg := if beam then h.openSeg else none
        element :=
          if beam = true ∧ h.openSeg ≠ none then
            some { index := min h.elementCount 4095, saturated := decide (h.elementCount = 4096) }
          else none
        start := stamp, stop := none, stroke := some p } := by
  have hindex : (if h.elementCount = Config.elementLimit then Config.elementLimit - 1 else h.elementCount) =
      min h.elementCount 4095 := by
    by_cases he : h.elementCount = Config.elementLimit
    · rw [if_pos he, he]
      rfl
    · rw [if_neg he]
      simp only [Config.elementLimit] at he
      omega
  have hsaturated : (h.elementCount == Config.elementLimit) = decide (h.elementCount = 4096) := rfl
  unfold History.vectorRecord
  rw [hindex, hsaturated]
  simp only [Bool.and_eq_true, Option.isSome_iff_ne_none]

theorem applyRecord_vector (beam : Bool) (p : Stroke) (stamp : Nat) :
    h.applyRecord (.vector beam p) stamp =
      { (h.enter (h.vectorRecord beam p stamp)) with
        elementCount := if beam = true ∧ h.openSeg ≠ none then min (h.elementCount + 1) 4096 else h.elementCount } := by
  have hcount : (h.enter (h.vectorRecord beam p stamp)).elementCount = h.elementCount := by rw [enter_eq]
  have hcond : (beam && h.openSeg.isSome) = true ↔ beam = true ∧ h.openSeg ≠ none := by
    rw [Bool.and_eq_true, Option.isSome_iff_ne_none]
  unfold History.applyRecord
  dsimp only
  split
  next hb =>
    rw [if_pos (hcond.1 hb)]
    rfl
  next hb =>
    rw [if_neg (fun hc => hb (hcond.2 hc)), ← hcount]

end History

/-- Settles O28, by the newest record's end and the fullness of the ring. -/
theorem strokeIsEnteredAsTheNewestRecord : Obligations.StrokeIsEnteredAsTheNewestRecord := by
  refine ⟨?_, fun h stamp hg => ⟨fun seg => takeEntry_applied hg _ _, takeEntry_applied hg _ _⟩⟩
  intro h beam p stamp r old hg hr hc happ hnil
  have hold := closeNewest_eq hnil happ
  have hstart : r.start = stamp := by rw [hr]
  rw [takeEntry_applied hg, applyRecord_vector, vectorRecord_eq beam p stamp hc, ← hr, enter_eq, hstart, hold]

/-- Settles O29, by the GAP record that a gap start enters and the entry that ends it. -/
theorem lossBecomesOneGap : Obligations.LossBecomesOneGap := by
  refine ⟨?_, ?_, ?_⟩
  · intro h a record stamp g ha
    refine ⟨by rw [ha]; rfl, rfl, fun hg seg init last hring hstop => ?_, fun seg => ?_⟩
    · have hclosed : closeNewest stamp h.ring = init ++ [{ last with stop := some stamp }] := by
        rw [hring, closeNewest_append, if_pos hstop]
      show (h.closeGap stamp).applyRecord (.segmentOpen seg) stamp = _
      rw [closeGap_of_open hg, hclosed]
      rfl
    · obtain ⟨init, hring⟩ := enter_ring (h := h) (gapRecord g none)
      have hring' : a.ring = init ++ [gapRecord g none] := by rw [ha]; exact hring
      have hopen : h.openGap g = { a with gapOpen := true, openSeg := none, elementCount := 0 } := by rw [ha]; rfl
      have hclosed : closeNewest stamp a.ring = a.ring.dropLast ++ [gapRecord g (some stamp)] := by
        rw [hring', closeNewest_append, List.dropLast_concat]
        rfl
      show ((h.openGap g).closeGap stamp).applyRecord (.segmentOpen seg) stamp = _
      rw [hopen, closeGap_of_open rfl, hclosed]
      rfl
  · intro h r old hnil happ
    rw [enter_eq, closeNewest_eq hnil happ]
  · intro h endTime
    refine ⟨fun hnil => ?_, fun init last hring => ?_, fun g => ?_⟩
    · unfold History.frameEnd
      dsimp only
      rw [hnil]
      rfl
    · unfold History.frameEnd
      dsimp only
      rw [hring, closeNewest_append]
    · obtain ⟨init, hring⟩ := enter_ring (h := h) (gapRecord g (some endTime))
      have hclosed : closeNewest endTime (h.enter (gapRecord g (some endTime))).ring = (h.enter (gapRecord g (some endTime))).ring := by
        rw [hring, closeNewest_append]
        rfl
      unfold History.frameEnd
      dsimp only
      rw [hclosed]
      rfl

/-! ## The history takes an entry (R4, R7, R58, R78) -/

section Takes

variable {s : State}

theorem enter_took (h : History) (r : HistoryRecord) : (h.enter r).took = h.took := by rw [enter_eq]

theorem takeEntry_took (h : History) (e : FifoEntry) : (h.takeEntry e).took = h.took := by
  have hopen : (match e.gapStart with | some g => h.openGap g | none => h).took = h.took := by
    cases e.gapStart with
    | none => rfl
    | some g => exact enter_took _ _
  have hclose : ∀ (k : History) (stamp : Nat), (k.closeGap stamp).took = k.took := by
    intro k stamp
    unfold History.closeGap
    split <;> rfl
  have happly : ∀ (k : History) (r : QueuedRecord) (stamp : Nat), (k.applyRecord r stamp).took = k.took := by
    intro k r stamp
    cases r with
    | segmentOpen seg => rfl
    | segmentClose => rfl
    | vector beam p =>
      rw [applyRecord_vector]
      exact enter_took _ _
  unfold History.takeEntry
  dsimp only
  split
  · exact hopen
  · exact (happly _ _ _).trans ((hclose _ _).trans hopen)

theorem historyTakes_eq (s : State) (e : FifoEntry) {c : Correlator}
    (hc : c = match e.reports with | none => s.corr | some start => { s.corr with newestStart := some start }) :
    s.historyTakes e =
      if e.reports = none then { s with hist := s.hist.takeEntry e, corr := c }
      else State.releaseTest { s with hist := s.hist.takeEntry e, corr := c } := by
  unfold State.historyTakes
  cases he : e.reports with
  | none =>
    rw [he] at hc
    rw [hc]
    rfl
  | some start =>
    rw [he] at hc
    rw [hc]
    rfl

/-- The state in which the oldest entry has left the FIFO and been taken, before the release test. -/
theorem handOldest_eq {e : FifoEntry} {rest : List FifoEntry} (hf : s.port.fifo = e :: rest) {x : State}
    (hx : x = { s with
      port := { s.port with fifo := rest, hold := if rest.length ≤ s.port.lw then false else s.port.hold }
      hist := s.hist.takeEntry e
      corr := match e.reports with | none => s.corr | some start => { s.corr with newestStart := some start } }) :
    s.handOldest = if e.reports = none then x else x.releaseTest := by
  unfold State.handOldest
  rw [hf, hx]
  exact historyTakes_eq _ e rfl

theorem releaseTest_of_nil (h : s.pen.waiting = []) : s.releaseTest = s := by
  unfold State.releaseTest
  rw [h]
  rfl

theorem takeOldest_of_nil (h : s.port.fifo = []) : s.takeOldest = s := by
  unfold State.takeOldest
  rw [h]
  rfl

theorem takeOldest_of_cons {e : FifoEntry} {rest : List FifoEntry} (h : s.port.fifo = e :: rest) :
    s.takeOldest = { s.handOldest with hist := { s.handOldest.hist with took := true } } := by
  unfold State.takeOldest
  rw [h]
  rfl

/-- The correlation of hits leaves the history, so the mark of the taking joins it before or after. -/
theorem correlated_if_releaseTest (c : Prop) [Decidable c] (x : State) : Correlated x (if c then x else x.releaseTest) := by
  split
  · exact .refl x
  · exact releaseTest_correlated x

end Takes

/-- Settles O27, by the oldest entry's leaving and the release test after it. -/
theorem historyTakesTheOldestEntry : Obligations.HistoryTakesTheOldestEntry := by
  refine ⟨?_, fun e => ⟨fun beam p hl hr => ?_, fun h => ?_⟩, fun s => flushFifo_nil, ?_, fun s => rfl⟩
  · intro dt s w hw
    have hexec : exec (.historyEntry dt) s = .next w.takeOldest := by rw [hw]; rfl
    refine ⟨fun hf => by rw [hexec, takeOldest_of_nil hf], ?_⟩
    intro e rest p h c hf hp hh hc
    obtain ⟨x, hx⟩ : ∃ x : State, x = { w with port := p, hist := w.hist.takeEntry e, corr := c } := ⟨_, rfl⟩
    have hhand : w.handOldest = if e.reports = none then x else x.releaseTest := by
      refine handOldest_eq hf (hx.trans ?_)
      subst hp hc
      rfl
    have hcorr : Correlated x w.handOldest := hhand ▸ correlated_if_releaseTest _ x
    have htaken : w.takeOldest = { w.handOldest with hist := h } := by
      rw [takeOldest_of_cons hf, hcorr.hist, hx, hh]
    have hcross : (w.handOldest.cross.state, w.handOldest.cross.x, w.handOldest.cross.y, w.handOldest.cross.miss) =
        (x.cross.state, x.cross.x, x.cross.y, x.cross.miss) := by rw [hcorr.crossSame]
    refine ⟨⟨_, hexec, ?_⟩, fun hwait => ?_⟩
    · rw [htaken]
      refine ⟨hcorr.port.trans (by rw [hx]), rfl, hcorr.corr.trans (by rw [hx]), ?_, ?_, hcorr.filt.trans (by rw [hx]),
        hcorr.coord.trans (by rw [hx]), hcross.trans (by rw [hx]), hcorr.answerOut.trans (by rw [hx]),
        hcorr.pending.trans (by rw [hx]), fun y hy => ?_⟩
      · exact (congrArg Directory.entries hcorr.dir).trans (by rw [hx])
      · exact (congrArg Directory.changes hcorr.dir).trans (by rw [hx])
      · have hxy : y = x := by
          have htook : { h with took := w.hist.took } = w.hist.takeEntry e := by rw [hh, ← takeEntry_took w.hist e]
          rw [hy, hx, htook]
        rw [hxy, hhand]
    · have hnone : x.releaseTest = x := releaseTest_of_nil (by rw [hx]; exact hwait)
      rw [hexec, htaken, hhand, hnone, ite_self, hx]
  · unfold FifoEntry.reports
    rw [hl, hr]
  · unfold FifoEntry.reports
    split
    next hl hr =>
      rcases h with h | h
      · exact absurd (hl.symm.trans h) Bool.false_ne_true
      · exact absurd hr (h _ _)
    next => rfl
  · intro s x e rest hf hx
    rw [flushFifo_cons hf, handOldest_eq hf hx]

end Sys2Proof.Machine
end

section
/-! PROOFS. The pen (R60 to R71, R77 to R79, R98 to R102, R106; O30 to O35): pulses, hits, the tip switch, tip events and the flood guard. -/

namespace Sys2Proof.Machine

variable {s t u : State}

/-! ## Pulses (R60 to R63) -/

theorem leadingEdge_of_asserted (h : s.pen.line = true) (enable : Bool) : s.leadingEdge enable = s := if_pos h

/-- The state in which the detection line has just been found asserted. -/
def State.edgeFound (s : State) (enable : Bool) : State := { s with pen := { s.pen with line := true, enable := enable } }

theorem leadingEdge_of_released (h : s.pen.line = false) (enable : Bool) :
    s.leadingEdge enable =
      if (s.edgeFound enable).admits enable = false then (s.edgeFound enable).count .discarded
      else if (s.edgeFound enable).pen.dead s.port.frameTime then (s.edgeFound enable).count .dead
      else { s.edgeFound enable with pen := { (s.edgeFound enable).pen with pulse := some (s.edgeFound enable).newPulse } } := by
  unfold State.leadingEdge
  rw [h]
  simp only [Bool.false_eq_true, if_false, Bool.not_eq_true']
  rfl

theorem admits_iff (s : State) (enable : Bool) :
    s.admits enable = true ↔ s.port.mode = .inFrame ∧ enable = true ∧ s.pen.muted = false := by
  unfold State.admits
  simp only [Bool.and_eq_true, beq_iff_eq, Bool.not_eq_true', and_assoc]

theorem dead_iff (p : Pen) (lead : Nat) : p.dead lead = true ↔ ∃ th, p.lastHit = some th ∧ lead < th + p.dd := by
  unfold Pen.dead
  cases p.lastHit with
  | none => simp
  | some th => simp

/-- Settles O30, by the edge's two tests: admitted, and past the dead time. -/
theorem leadingEdgeIsTested : Obligations.LeadingEdgeIsTested := by
  rintro dt enable s u rfl
  refine ⟨fun h => congrArg Host.Outcome.next (leadingEdge_of_asserted h enable), fun h => ?_⟩
  have hexec : exec (.pulseLeadingEdge dt enable) s = .next ((s.advance dt).leadingEdge enable) := rfl
  have hadmits := admits_iff ((s.advance dt).edgeFound enable) enable
  rw [hexec, leadingEdge_of_released h]
  refine ⟨fun hno => ?_, fun hm he hmuted => ?_⟩
  · have hrefused : ((s.advance dt).edgeFound enable).admits enable = false := by
      rw [Bool.eq_false_iff]
      intro hyes
      obtain ⟨hm, he, hmuted⟩ := hadmits.1 hyes
      rcases hno with hno | hno | hno
      · exact hno hm
      · exact Bool.false_ne_true (hno.symm.trans he)
      · exact Bool.false_ne_true (hmuted.symm.trans hno)
    rw [if_pos hrefused]
    rfl
  · have hyes := hadmits.2 ⟨hm, he, hmuted⟩
    have hdead := dead_iff ((s.advance dt).edgeFound enable).pen (s.advance dt).port.frameTime
    subst he
    rw [if_neg (by rw [hyes]; exact Bool.true_eq_false.mp)]
    refine ⟨fun th hth hlt => ?_, fun hpast => ?_⟩
    · rw [if_pos (hdead.2 ⟨th, hth, hlt⟩)]
      rfl
    · rw [if_neg]
      · rfl
      · intro hd
        obtain ⟨th, hth, hlt⟩ := hdead.1 hd
        exact absurd (hpast th hth) (Nat.not_le.2 hlt)

/-- Settles O31, by the line and the pulse in progress. -/
theorem releasedPulseIsNarrow : Obligations.ReleasedPulseIsNarrow := by
  rintro dt s u rfl
  have hexec : exec (.pulseEnd dt) s = .next (s.advance dt).pulseReleased := rfl
  rw [hexec]
  unfold State.pulseReleased
  refine ⟨fun h => ?_, fun h hp => ?_, fun h hp => ?_⟩
  · rw [h]
    rfl
  · have hpen : { (s.advance dt).pen with line := false, pulse := none } = { (s.advance dt).pen with line := false } := by
      rw [← hp]
    rw [h, hp]
    simp only [Bool.not_true, Bool.false_eq_true, if_false, Option.isSome_none]
    rw [hpen]
  · rw [h, Option.isSome_iff_ne_none.2 hp]
    rfl

/-! ## Release (R77 to R79) -/

theorem released_iff (s : State) (th : Nat) :
    s.released th = true ↔ ∃ start, s.corr.newestStart = some start ∧ (th : Int) - s.corr.l + s.corr.w < start := by
  unfold State.released State.correctedTime
  cases s.corr.newestStart with
  | none => simp
  | some start => simp

/-- The waiting hits left after a hit's correlation are those behind it. -/
theorem correlateHit_waiting (s : State) (th : Nat) (rest : List Nat) :
    (State.correlateHit { s with pen := { s.pen with waiting := rest } } th).pen.waiting = rest :=
  congrArg Pen.waiting (correlateHit_pen _ th)

theorem releaseTest_cons {th : Nat} {rest : List Nat} (h : s.pen.waiting = th :: rest) :
    s.releaseTest =
      if s.released th then (State.correlateHit { s with pen := { s.pen with waiting := rest } } th).releaseTest else s := by
  unfold State.releaseTest
  rw [h, correlateHit_waiting]
  rfl

theorem frameHits_cons {th : Nat} {rest : List Nat} (h : s.pen.waiting = th :: rest) :
    s.frameHits = (State.correlateHit { s with pen := { s.pen with waiting := rest } } th).frameHits := by
  unfold State.frameHits
  rw [h, correlateHit_waiting]
  rfl

theorem frameHits_nil (h : s.pen.waiting = []) : s.frameHits = { s with corr := { s.corr with frameDone := true } } := by
  unfold State.frameHits
  rw [h]
  rfl

/-! ## Qualification (R63, R65, R66, R70) -/

theorem failFrame_pen (s : State) (n : Link) (reason : FailReason) : (s.failFrame n reason).pen = s.pen := by
  have hflag : ((s.setReceiver n .hunting).setFlag (.frameError n)).pen = s.pen :=
    (setFlag_posted _ _).pen.trans (setUnit_pen _ _ _)
  unfold State.failFrame
  dsimp only
  split
  · exact (placeReply_pen _ _ _).trans hflag
  · exact hflag

theorem debounce_pen (s : State) : s.debounce.pen = { s.pen with tipDebounced := s.pen.tipRaw, tipTimer := none } := by
  unfold State.debounce
  dsimp only
  split
  · exact (tipDown_resolved _).pen
  · exact (tipUp_resolved _).pen
  · rfl
  · rfl

/-- A pulse in progress ends by its qualification or with its frame alone (R63, R64). -/
theorem fire_pulse {e : TimedEvent} (hq : e ≠ .qualify) (ha : e ≠ .absence) : (s.fire e).pen.pulse = s.pen.pulse := by
  cases e with
  | qualify => exact absurd rfl hq
  | debounce => exact (congrArg Pen.pulse (debounce_pen s)).trans rfl
  | gap n => exact congrArg Pen.pulse (failFrame_pen s n .short)
  | absence => exact absurd rfl ha

theorem due_qualify_congr (h : t.pen.pulse = s.pen.pulse) : t.due .qualify = s.due .qualify := by simp only [State.due, h]

/-- Until it qualifies, a pulse stands with the ticks if the absence timer lets its frame last (R15, R63). -/
theorem advanceBy_pulse (fuel : Nat) {d n : Nat} (hq : s.due .qualify = some n) (ha : ∀ m, s.due .absence = some m → n ≤ m)
    (hd : d ≤ n) : (State.advanceBy fuel d s).pen.pulse = (s.elapse d).pen.pulse := by
  induction fuel generalizing d n s with
  | zero => rfl
  | succ k ih =>
    unfold State.advanceBy
    split
    · rfl
    next e j hn =>
      split
      next hlt =>
        have hdue := nextOf_due hn
        have hne : e ≠ .qualify := by
          rintro rfl
          have hjn : j = n := Option.some.inj (hdue.symm.trans hq)
          omega
        have hna : e ≠ .absence := by
          rintro rfl
          have := ha j hdue
          omega
        have hpulse : ((s.elapse j).fire e).pen.pulse = (s.elapse j).pen.pulse := fire_pulse hne hna
        have hq' : ((s.elapse j).fire e).due .qualify = some (n - j) := by
          rw [due_qualify_congr hpulse, elapse_due, hq]
          rfl
        have ha' : ∀ m, ((s.elapse j).fire e).due .absence = some m → n - j ≤ m := by
          intro m hm
          rw [due_absence_congr (s := s.elapse j) (fire_port hna), elapse_due] at hm
          obtain ⟨m', hm', rfl⟩ := Option.map_eq_some_iff.1 hm
          have := ha m' hm'
          omega
        have hsum : j + (d - j) = d := by omega
        rw [ih hq' ha' (by omega)]
        show ((s.elapse j).fire e).pen.pulse.map _ = _
        rw [hpulse]
        have helapse := congrArg (fun t : State => t.pen.pulse) (elapse_elapse s j (d - j))
        rw [hsum] at helapse
        exact helapse
      next => rfl

/-- Time that runs to a pulse's qualification finds it standing and due. -/
theorem advance_to_qualify {p : Pulse} (hp : s.pen.pulse = some p) (hm : s.port.mode = .inFrame)
    (hlasts : p.wmin - p.stood ≤ s.port.ta * Config.ticksPerMs - s.port.absence) :
    (∃ q, (s.advance (p.wmin - p.stood)).pen.pulse = some q ∧ q.lead = p.lead) ∧
      (s.advance (p.wmin - p.stood)).due .qualify = some 0 := by
  have hdue : s.due .qualify = some (p.wmin - p.stood) := by simp only [State.due, hp, Option.map_some]
  rcases Nat.eq_zero_or_pos (p.wmin - p.stood) with h0 | hpos
  · rw [h0, advance_zero]
    exact ⟨⟨p, hp, rfl⟩, h0 ▸ hdue⟩
  · have habsence : ∀ m, s.due .absence = some m → p.wmin - p.stood ≤ m := by
      intro m hdm
      rw [due_absence_of_running (by rw [hm]; exact fun h => nomatch h)] at hdm
      exact Option.some.inj hdm ▸ hlasts
    have hpulse : (s.advance (p.wmin - p.stood)).pen.pulse = (s.elapse (p.wmin - p.stood)).pen.pulse := by
      rw [advance_of_pos s hpos]
      exact advanceBy_pulse 5 hdue habsence (Nat.le_refl _)
    refine ⟨⟨{ p with stood := p.stood + (p.wmin - p.stood) }, ?_, rfl⟩, ?_⟩
    · rw [hpulse]
      show s.pen.pulse.map _ = _
      rw [hp]
      rfl
    · rw [due_qualify_congr hpulse, elapse_due, hdue, Option.map_some, Nat.sub_self]

theorem qualify_of_some {q : Pulse} (h : s.pen.pulse = some q) :
    s.qualify = State.floodTest { s with pen := { s.pen with pulse := none, lastHit := some q.lead } } q.lead := by
  unfold State.qualify
  rw [h]

theorem floodTest_of_flood (th : Nat) (h : s.pen.f ≤ s.pen.hitCount) :
    s.floodTest th = { s with pen := { s.pen with flooded := true }, stats := s.stats.count .discarded } :=
  if_neg (Nat.not_lt.2 h)

theorem floodTest_of_fewer (th : Nat) (h : s.pen.hitCount < s.pen.f) :
    s.floodTest th = State.joinWaiting { s with pen := { s.pen with hitCount := s.pen.hitCount + 1 } } th := if_pos h

theorem joinWaiting_of_full (th : Nat) (h : Config.waitingSize ≤ s.pen.waiting.length) :
    s.joinWaiting th = { s with stats := s.stats.count .discarded } := if_neg (Nat.not_lt.2 h)

theorem joinWaiting_of_room (th : Nat) (h : s.pen.waiting.length < Config.waitingSize) :
    s.joinWaiting th =
      State.releaseTest
        { s with pen := { s.pen with waiting := s.pen.waiting ++ [th] }, stats := s.stats.count .hits } := if_pos h

/-- Settles O32, by the release test's recursion and the two tests of a qualified hit. -/
theorem pulseQualifiesAsAHit : Obligations.PulseQualifiesAsAHit := by
  refine ⟨fun s => ⟨fun h => ⟨releaseTest_of_nil h, frameHits_nil h⟩, ?_⟩, fun s => ⟨fun h => ?_, ?_⟩⟩
  · rintro th rest a h rfl
    refine ⟨fun hstays => ?_, fun start hstart hlt => ?_, frameHits_cons h⟩
    · rw [releaseTest_cons h, if_neg]
      intro hrel
      obtain ⟨start, hstart, hlt⟩ := (released_iff s th).1 hrel
      exact absurd (hstays start hstart) (Int.not_le.2 hlt)
    · rw [releaseTest_cons h, if_pos ((released_iff s th).2 ⟨start, hstart, hlt⟩)]
  · have hdue : s.due .qualify = none := by simp only [State.due, h, Option.map_none]
    simp only [exec, execPulseQualify, State.runTo, hdue, Bool.false_eq_true, if_false]
  · intro p u hp hm hlasts hu
    obtain ⟨⟨q, hq, hlead⟩, hnow⟩ := advance_to_qualify hp hm hlasts
    have hdue : s.due .qualify = some (p.wmin - p.stood) := by simp only [State.due, hp, Option.map_some]
    rw [← hu] at hq hnow
    have hexec : exec .pulseQualify s = .next u.qualify := by
      simp only [exec, execPulseQualify, State.runTo, hdue, ← hu, hnow, decide_true, if_true]
    have hqualify := qualify_of_some hq
    rw [hlead] at hqualify
    refine ⟨u.qualify, hexec, ?_⟩
    rw [hqualify]
    by_cases hflood : u.pen.f ≤ u.pen.hitCount
    · rw [floodTest_of_flood (s := { u with pen := { u.pen with pulse := none, lastHit := some p.lead } }) _ hflood]
      exact ⟨rfl, rfl, rfl, fun _ => rfl, fun h => absurd h (Nat.not_lt.2 hflood)⟩
    · have hfewer := Nat.not_le.1 hflood
      rw [floodTest_of_fewer (s := { u with pen := { u.pen with pulse := none, lastHit := some p.lead } }) _ hfewer]
      by_cases hfull : Config.waitingSize ≤ u.pen.waiting.length
      · rw [joinWaiting_of_full (s := { u with pen := { u.pen with
          pulse := none, lastHit := some p.lead, hitCount := u.pen.hitCount + 1 } }) _ hfull]
        exact ⟨rfl, rfl, rfl, fun h => absurd h hflood, fun _ => ⟨rfl, rfl, fun _ => rfl, fun h => absurd h (Nat.not_lt.2 hfull)⟩⟩
      · have hroom := Nat.not_le.1 hfull
        rw [joinWaiting_of_room (s := { u with pen := { u.pen with
          pulse := none, lastHit := some p.lead, hitCount := u.pen.hitCount + 1 } }) _ hroom]
        have hcorr := releaseTest_correlated
          { u with
            pen :=
              { u.pen with
                pulse := none, lastHit := some p.lead, hitCount := u.pen.hitCount + 1, waiting := u.pen.waiting ++ [p.lead] }
            stats := u.stats.count .hits }
        exact ⟨(congrArg Pen.pulse hcorr.pen).trans rfl, (congrArg Pen.lastHit hcorr.pen).trans rfl, hcorr.port,
          fun h => absurd h hflood, fun _ =>
            ⟨(congrArg Pen.hitCount hcorr.pen).trans rfl, (congrArg Pen.flooded hcorr.pen).trans rfl, fun h => absurd h hfull,
              fun _ => ⟨hcorr.counters.2.1, rfl⟩⟩⟩

/-! ## The tip switch (R71) -/

theorem absenceExpires_due_debounce (s : State) (e : FrameEndOrder) (o : DarkOrder) :
    (s.absenceExpires e o).due .debounce = s.due .debounce := by
  unfold State.absenceExpires
  split
  · rfl
  · exact enterDark_due _ _ _
  · exact (enterDark_due _ _ .debounce).trans ((frameEnds_due _ _ _ .debounce).trans (flushFifo_due s .debounce))

theorem fire_due_debounce {e : TimedEvent} (h : e ≠ .debounce) : (s.fire e).due .debounce = s.due .debounce := by
  cases e with
  | qualify => exact qualify_due s .debounce
  | debounce => exact absurd rfl h
  | gap n => exact failFrame_due s n .short .debounce
  | absence => exact absenceExpires_due_debounce s _ _

/-- Until it expires, no other event touches the debounce timer. -/
theorem advanceBy_due_debounce (fuel : Nat) {d m : Nat} (hdue : s.due .debounce = some m) (hd : d ≤ m) :
    (State.advanceBy fuel d s).due .debounce = some (m - d) := by
  have helapse : ∀ d, (s.elapse d).due .debounce = some (m - d) := fun d => by rw [elapse_due, hdue]; rfl
  induction fuel generalizing d m s with
  | zero => exact helapse d
  | succ k ih =>
    unfold State.advanceBy
    split
    · exact helapse d
    next e n hn =>
      split
      next hlt =>
        have hne : e ≠ .debounce := by
          rintro rfl
          have hnm : n = m := Option.some.inj ((nextOf_due hn).symm.trans hdue)
          omega
        have hdue' : ((s.elapse n).fire e).due .debounce = some (m - n) := (fire_due_debounce hne).trans (helapse n)
        rw [ih hdue' (by omega) (fun d => by rw [elapse_due, hdue']; rfl)]
        congr 1
        omega
      next => exact helapse d

theorem advance_due_debounce {m : Nat} (hdue : s.due .debounce = some m) : (s.advance m).due .debounce = some 0 := by
  rcases Nat.eq_zero_or_pos m with rfl | hm
  · exact hdue
  · rw [advance_of_pos s hm, advanceBy_due_debounce 5 hdue (Nat.le_refl _), Nat.sub_self]

/-- Settles O33, by the level's two comparisons and the change that the debounce hands on. -/
theorem tipIsDebounced : Obligations.TipIsDebounced := by
  refine ⟨?_, fun s h => ?_, ?_⟩
  · rintro dt level s u rfl
    exact ⟨fun h => congrArg Host.Outcome.next (if_pos h), fun h => congrArg Host.Outcome.next (if_neg h)⟩
  · have hdue : s.due .debounce = none := by simp only [State.due, h, Option.map_none]
    simp only [exec, execTipDebounceExpiry, State.runTo, hdue, Bool.false_eq_true, if_false]
  · intro s u e he hu
    have hdue : s.due .debounce = some (s.pen.tb * Config.ticksPerMs - e) := by
      simp only [State.due, he, Option.map_some, debounceTicks]
    have hnow := advance_due_debounce hdue
    rw [← hu] at hnow
    have hexec : exec .tipDebounceExpiry s = .next u.debounce := by
      simp only [exec, execTipDebounceExpiry, State.runTo, hdue, ← hu, hnow, decide_true, if_true]
    obtain ⟨a, ha⟩ : ∃ a : State, a = { u with pen := { u.pen with tipDebounced := u.pen.tipRaw, tipTimer := none } } := ⟨_, rfl⟩
    have hdown : u.pen.tipDebounced = .up → u.pen.tipRaw = .down → u.debounce = a.tipDown := fun h1 h2 => by
      rw [ha]
      unfold State.debounce
      rw [h1, h2]
    have hup : u.pen.tipDebounced = .down → u.pen.tipRaw = .up → u.debounce = a.tipUp := fun h1 h2 => by
      rw [ha]
      unfold State.debounce
      rw [h1, h2]
    have hsame : u.pen.tipDebounced = u.pen.tipRaw → u.debounce = a := fun h => by
      rw [ha]
      unfold State.debounce
      rw [h]
      cases u.pen.tipRaw <;> rfl
    have hresolved : Resolved a u.debounce := by
      cases h1 : u.pen.tipDebounced <;> cases h2 : u.pen.tipRaw
      · rw [hsame (h1.trans h2.symm)]
        exact .refl a
      · rw [hdown h1 h2]
        exact tipDown_resolved a
      · rw [hup h1 h2]
        exact tipUp_resolved a
      · rw [hsame (h1.trans h2.symm)]
        exact .refl a
    exact ⟨u.debounce, a, hexec, ha, hdown, hup, hsame, debounce_pen u, debounce_port u, hresolved.hist.trans (by rw [ha]),
      (congrArg Directory.entries hresolved.dir).trans (by rw [ha]), hresolved.filt.trans (by rw [ha]),
      hresolved.cross.trans (by rw [ha]), hresolved.coord.trans (by rw [ha])⟩

/-! ## Tip events (R98, R100 to R102) -/

theorem resolverCount_eq (s : State) :
    resolverCount s =
      if s.res.attempt = .gathering ∧ s.res.fresh = false then
        if s.res.n ≤ s.res.frames + 1 then
          State.resolve { s with res := { s.res with frames := s.res.frames + 1, attempt := .closing, closing := 0 } }
        else { s with res := { s.res with frames := s.res.frames + 1 } }
      else s := rfl

theorem hitDone_eq (s : State) :
    s.hitDone =
      if s.res.attempt = .closing then
        if s.res.closing ≤ 1 then State.resolve { s with res := { s.res with closing := s.res.closing - 1 } }
        else { s with res := { s.res with closing := s.res.closing - 1 } }
      else s := rfl

theorem tipDown_of_idle (h : s.res.attempt = .idle) : s.tipDown = s.tipDownIdle := by
  unfold State.tipDown
  rw [h]

theorem tipDown_of_busy (h : s.res.attempt ≠ .idle) : s.tipDown = s := by
  unfold State.tipDown
  split
  next hi => exact absurd hi h
  next => rfl
  next => rfl
  next => rfl

theorem tipDownIdle_of_muted (h : s.pen.muted = true) : s.tipDownIdle = s := if_pos h

theorem tipDownIdle_of_lit (hmuted : s.pen.muted = false) (hm : s.port.mode ≠ .dark) : s.tipDownIdle = s.setUpAttempt := by
  unfold State.tipDownIdle
  rw [if_neg (by rw [hmuted]; exact Bool.false_ne_true)]
  exact if_neg hm

theorem tipDownIdle_of_dark (hmuted : s.pen.muted = false) (hm : s.port.mode = .dark) (hd : s.pen.tipDebounced = .down) :
    s.tipDownIdle = (s.setUpAttempt.lostOutcome .noFrames).endAttempt .held := by
  unfold State.tipDownIdle
  rw [if_neg (by rw [hmuted]; exact Bool.false_ne_true)]
  dsimp only
  rw [if_pos hm, if_pos hd]

/-- The state in which an attempt has been set up (R97, R98). -/
theorem setUpAttempt_eq (s : State) {f : Bool} (hf : f = true ↔ s.port.mode = .inFrame ∧ s.hist.isOpen = false) :
    s.setUpAttempt =
      { s with
        res :=
          { s.res with
            number := s.res.number + 1, frames := 0, releaseSeen := false, gap := false, overflow := false
            withdrawn := false, closing := 0, tally := [], attempt := .gathering, fresh := f }
        stats := s.stats.count .attempts } := by
  have hfresh : (!s.hist.isOpen && s.port.mode == .inFrame) = f := by
    rw [Bool.eq_iff_iff, hf]
    simp only [Bool.and_eq_true, Bool.not_eq_true', beq_iff_eq]
    exact and_comm
  unfold State.setUpAttempt
  dsimp only
  rw [hfresh]
  rfl

/-- Settles O34, by the attempt state that each event finds. -/
theorem tipEventsMoveTheAttempt : Obligations.TipEventsMoveTheAttempt := by
  refine ⟨fun s => ⟨fun h => ?_, fun hg hf => ⟨fun hn => ?_, fun hn => ?_⟩, fun h => ?_, fun h => ⟨fun hc => ?_, fun hc => ?_⟩⟩,
    fun s hd => ⟨tipDown_of_busy, fun hi => ⟨fun hmuted => ?_, fun hmuted hm => ?_, fun hmuted hm f hf => ?_⟩⟩, ?_⟩
  · rw [resolverCount_eq, if_neg]
    rintro ⟨hg, hf⟩
    rcases h with h | h
    · exact h hg
    · exact Bool.false_ne_true (hf.symm.trans h)
  · rw [resolverCount_eq, if_pos ⟨hg, hf⟩, if_neg (Nat.not_le.2 hn)]
  · rw [resolverCount_eq, if_pos ⟨hg, hf⟩, if_pos hn]
  · rw [hitDone_eq, if_neg h]
  · rw [hitDone_eq, if_pos h, if_neg (Nat.not_le.2 hc)]
  · rw [hitDone_eq, if_pos h, if_pos hc]
  · rw [tipDown_of_idle hi, tipDownIdle_of_muted hmuted]
  · have hset := setUpAttempt_eq s (f := false) (by rw [hm]; simp)
    rw [tipDown_of_idle hi, tipDownIdle_of_dark hmuted hm hd]
    have hpost := post_posted s.setUpAttempt s.setUpAttempt.res.modeOwner (.pick (s.setUpAttempt.res.bareNotice .lost .noFrames))
    refine ⟨rfl, congrArg Resolver.number hpost.res, congrArg Resolver.frames hpost.res, rfl, ?_, ?_, ?_⟩
    · exact congrArg (fun st : Stats => st.attempts) hpost.stats
    · exact (congrArg (fun st : Stats => countUp st.lost) hpost.stats).trans rfl
    · rintro b z hb rfl
      rw [hset, ← hb]
      have hb' : b.res.modeOwner = s.res.modeOwner := by rw [hb]
      have hbare : b.res.bareNotice .lost .noFrames =
          { kind := .lost, attempt := s.res.number + 1, frames := 0, reason := .noFrames
            flags :=
              { gap := false, overflow := false, withdrawn := false, elementSaturated := false, saturated := false
                snapped := false, dwell := false }
            primary := none, list := [] } := by
        rw [hb]
        rfl
      unfold State.lostOutcome
      rw [hb', hbare]
      rfl
  · rw [tipDown_of_idle hi, tipDownIdle_of_lit hmuted hm]
    exact setUpAttempt_eq s hf
  · rintro s c rfl
    refine ⟨fun hg hw => ?_, fun hg hw => ?_, fun hh => ?_, fun h => ?_⟩
    · unfold State.tipUp
      rw [hg]
      exact if_neg (fun h0 => hw (List.length_eq_zero_iff.1 h0))
    · unfold State.tipUp
      rw [hg]
      exact if_pos (List.length_eq_zero_iff.2 hw)
    · unfold State.tipUp
      rw [hh]
      rfl
    · unfold State.tipUp
      rcases h with h | h <;> rw [h]

/-! ## The flood guard (R67, R68, R106) -/

/-- An attempt lost while the pen is MUTED leaves none (R98, R106). -/
theorem loseAttempt_muted (reason : PickReason) (h : s.pen.muted = true) :
    (s.loseAttempt reason).res.attempt = .idle ∨ (s.loseAttempt reason).res.attempt = .held := by
  have hafter : ∀ t : State, t.pen.muted = true → t.afterOutcome.res.attempt = .idle ∨ t.afterOutcome.res.attempt = .held := by
    intro t ht
    unfold State.afterOutcome
    split
    · exact .inl rfl
    · split
      · rw [tipDownIdle_of_muted (s := t.endAttempt .idle) ht]
        exact .inl rfl
      · exact .inr rfl
  have hmuted : (s.lostOutcome reason).pen.muted = true := by rw [(lostOutcome_resolved s reason).pen]; exact h
  unfold State.loseAttempt
  split
  · exact hafter _ hmuted
  · exact hafter _ hmuted
  next hi => exact .inl hi
  next hh => exact .inr hh

/-- Settles O35, by the pen's state and the number of floods. -/
theorem sixthFloodMutesThePen : Obligations.SixthFloodMutesThePen := by
  rintro s a rfl
  refine ⟨fun h => if_pos h, fun hmuted hflooded => ?_, fun hmuted hflooded => ?_⟩
  · unfold penReckoning
    rw [hmuted, hflooded]
    rfl
  · have hflag := setFlag_posted { s with pen := { s.pen with floods := s.pen.floods + 1 } } .flood
    have hreckon : penReckoning s =
        if 6 ≤ s.pen.floods + 1 then
          (State.setFlag { s with pen := { s.pen with floods := s.pen.floods + 1 } } .flood).mutePen
        else State.setFlag { s with pen := { s.pen with floods := s.pen.floods + 1 } } .flood := by
      unfold penReckoning
      rw [hmuted, hflooded]
      rfl
    have hset := setFlag_sets { s with pen := { s.pen with floods := s.pen.floods + 1 } } .flood
    generalize State.setFlag { s with pen := { s.pen with floods := s.pen.floods + 1 } } .flood = a at hflag hreckon hset
    have hpen : a.pen = { s.pen with floods := s.pen.floods + 1 } := hflag.pen
    by_cases hsix : 6 ≤ s.pen.floods + 1
    · have hmute := setFlag_posted { a with pen := { a.pen with muted := true } } .penMuted
      have hlose := loseAttempt_resolved (State.setFlag { a with pen := { a.pen with muted := true } } .penMuted) .penMuted
      have hpen' : a.mutePen.pen = { a.pen with muted := true } := hlose.pen.trans hmute.pen
      rw [hreckon, if_pos hsix]
      refine ⟨fun h => absurd hsix (by omega), fun _ => rfl, ?_, ?_, ?_, fun _ => ⟨?_, ?_⟩⟩
      · exact hlose.flags _ (hmute.flags _ hset)
      · rw [hpen', hpen]
      · rw [hpen']
        exact iff_of_true rfl hsix
      · exact hlose.flags _ (setFlag_sets _ _)
      · refine loseAttempt_muted .penMuted ?_
        rw [hmute.pen]
    · rw [hreckon, if_neg hsix]
      refine ⟨fun _ => rfl, fun h => absurd h hsix, hset, ?_, ?_, fun h => absurd h hsix⟩
      · rw [hpen]
      · rw [hpen]
        exact iff_of_false (by rw [hmuted]; exact Bool.false_ne_true) hsix

end Sys2Proof.Machine
end

section
/-! PROOFS. The records kept of a hit and their beam points (R80, R82, R89, R149, R150; O36, O38). -/

namespace Sys2Proof.Machine

/-! ## Insertion by a test -/

section Insertion

variable {α : Type} {R : α → α → Prop} {test : α → α → Bool}

/-- Insertion before the first element that a test allows. -/
def insertBy (test : α → α → Bool) (a : α) : List α → List α
  | [] => [a]
  | b :: rest => if test a b then a :: b :: rest else b :: insertBy test a rest

theorem perm_insertBy (a : α) (l : List α) : (insertBy test a l).Perm (a :: l) := by
  induction l with
  | nil => exact .refl _
  | cons b rest ih =>
    unfold insertBy
    split
    · exact .refl _
    · exact (ih.cons b).trans (.swap a b rest)

theorem perm_foldr_insertBy (l : List α) : (l.foldr (insertBy test) []).Perm l := by
  induction l with
  | nil => exact .refl _
  | cons a rest ih => exact (perm_insertBy a _).trans (ih.cons a)

/-- Insertion by a test keeps a list in a transitive order that the test decides one way or the other. -/
theorem pairwise_insertBy (hyes : ∀ a b, test a b = true → R a b) (hno : ∀ a b, test a b = false → R b a)
    (htrans : ∀ a b c, R a b → R b c → R a c) (a : α) {l : List α} (h : l.Pairwise R) : (insertBy test a l).Pairwise R := by
  induction l with
  | nil => exact List.pairwise_singleton _ _
  | cons b rest ih =>
    obtain ⟨hb, hrest⟩ := List.pairwise_cons.1 h
    unfold insertBy
    split
    next ht =>
      have hab := hyes _ _ ht
      refine List.pairwise_cons.2 ⟨fun c hc => ?_, h⟩
      rcases List.mem_cons.1 hc with rfl | hc
      · exact hab
      · exact htrans _ _ _ hab (hb c hc)
    next ht =>
      refine List.pairwise_cons.2 ⟨fun c hc => ?_, ih hrest⟩
      rcases List.mem_cons.1 ((perm_insertBy a rest).mem_iff.1 hc) with rfl | hc
      · exact hno _ _ (Bool.eq_false_iff.2 ht)
      · exact hb c hc

theorem pairwise_foldr_insertBy (hyes : ∀ a b, test a b = true → R a b) (hno : ∀ a b, test a b = false → R b a)
    (htrans : ∀ a b c, R a b → R b c → R a c) (l : List α) : (l.foldr (insertBy test) []).Pairwise R := by
  induction l with
  | nil => exact List.Pairwise.nil
  | cons a rest ih => exact pairwise_insertBy hyes hno htrans a ih

end Insertion

/-! ## Distance and ranking (R80, R82) -/

theorem nearInsert_eq : nearInsert = insertBy ReadStroke.nearer := by
  funext r l
  induction l with
  | nil => rfl
  | cons q rest ih =>
    unfold nearInsert insertBy
    rw [ih]

/-- A record is ranked before another, or level with it (R82). -/
def ReadStroke.Within (a b : ReadStroke) : Prop := a.distance < b.distance ∨ (a.distance = b.distance ∧ a.start ≤ b.start)

theorem nearer_iff (a b : ReadStroke) : a.nearer b = true ↔ a.Within b := by
  unfold ReadStroke.nearer ReadStroke.Within
  simp only [Bool.or_eq_true, Bool.and_eq_true, decide_eq_true_eq]

theorem ranked_pairwise (l : List ReadStroke) : (l.foldr nearInsert []).Pairwise ReadStroke.Within := by
  rw [nearInsert_eq]
  refine pairwise_foldr_insertBy (fun a b => (nearer_iff a b).1) (fun a b h => ?_) (fun a b c hab hbc => ?_) l
  · have hnot : ¬ a.Within b := fun hw => Bool.false_ne_true (h.symm.trans ((nearer_iff a b).2 hw))
    unfold ReadStroke.Within at hnot ⊢
    omega
  · unfold ReadStroke.Within at *
    omega

theorem mem_ranked (l : List ReadStroke) (a : ReadStroke) : a ∈ l.foldr nearInsert [] ↔ a ∈ l := by
  rw [nearInsert_eq]
  exact (perm_foldr_insertBy l).mem_iff

theorem asCandidate_of_vector {tc : Int} {w : Nat} {r : HistoryRecord} {seg te : Nat} {el : ElementMark} {p : Stroke}
    (hk : r.kind = .vector) (hs : r.seg = some seg) (he : r.element = some el) (hp : r.stroke = some p) (ht : r.stop = some te)
    (hlt : r.start < te) (hd : spanDistance tc r.start te ≤ w) :
    r.asCandidate tc w =
      some { seg := seg, element := el, start := r.start, stop := te, stroke := p, distance := spanDistance tc r.start te } := by
  unfold HistoryRecord.asCandidate
  rw [hk, hs, he, hp, ht]
  exact if_pos ⟨hlt, hd⟩

theorem asCandidate_eq_some {tc : Int} {w : Nat} {r : HistoryRecord} {k : ReadStroke} (h : r.asCandidate tc w = some k) :
    r.kind = .vector ∧ r.seg = some k.seg ∧ r.element = some k.element ∧ r.start = k.start ∧ r.stop = some k.stop ∧
      r.stroke = some k.stroke ∧ k.start < k.stop ∧ k.distance = spanDistance tc k.start k.stop ∧ k.distance ≤ w := by
  unfold HistoryRecord.asCandidate at h
  split at h
  next hk hs he ht hp =>
    split at h
    next hc =>
      cases Option.some.inj h
      exact ⟨hk, hs, he, rfl, ht, hp, hc.1, rfl, hc.2⟩
    next => exact nomatch h
  next => exact nomatch h

/-- Settles O36, by the ranking that insertion makes and the four it keeps. -/
theorem nearestFourRecordsAreKept : Obligations.NearestFourRecordsAreKept := by
  refine ⟨fun tc ts te hlt => ?_, ?_, ?_, fun tc w ring => ?_⟩
  · unfold spanDistance
    refine ⟨fun h => if_pos h, fun h => ?_, fun h1 h2 => ?_⟩
    · rw [if_neg (by omega), if_pos h]
    · rw [if_neg (by omega), if_neg (by omega)]
  · intro tc w ring r seg te el p hr hk hs he hp ht hlt hd
    exact List.mem_filterMap.2 ⟨r, hr, asCandidate_of_vector hk hs he hp ht hlt hd⟩
  · intro tc w ring k hk
    obtain ⟨r, hr, hread⟩ := List.mem_filterMap.1 ((mem_ranked _ _).1 (List.mem_of_mem_take hk))
    exact ⟨r, hr, asCandidate_eq_some hread⟩
  · have hsorted := ranked_pairwise (ring.filterMap (HistoryRecord.asCandidate tc w))
    refine ⟨?_, hsorted.sublist (List.take_sublist _ _), fun a ha => ?_⟩
    · unfold keptRecords
      rw [List.length_take, nearInsert_eq, (perm_foldr_insertBy _).length_eq]
      rfl
    · have hranked := (mem_ranked _ _).2 ha
      rw [← List.take_append_drop Config.candidateCap (List.foldr nearInsert [] _)] at hranked hsorted
      rcases List.mem_append.1 hranked with hkept | hpassed
      · exact .inl hkept
      · exact .inr fun k hk => (List.pairwise_append.1 hsorted).2.2 k hk a hpassed

/-! ## Beam points (R89) -/

/-- The clamped time lies in the span, and stands where it lies there already. -/
theorem clampTime_bounds (tc : Int) {ts te : Nat} (h : ts < te) :
    (ts : Int) ≤ clampTime tc ts te ∧ clampTime tc ts te ≤ te ∧ (tc ≤ ts → clampTime tc ts te = ts) ∧
      (te ≤ tc → clampTime tc ts te = te) ∧ (ts ≤ tc → tc ≤ te → clampTime tc ts te = tc) := by
  unfold clampTime
  omega

/-- A quotient of a magnitude at most `m * d` rounds to one of at most `m`. -/
theorem roundHalfAway_le {num : Int} {d m : Nat} (hd : 0 < d) (h : num.natAbs ≤ m * d) :
    (2 * num.natAbs + d) / (2 * d) ≤ m := by
  have hlt : 2 * num.natAbs + d < 2 * d * (m + 1) := by
    have hexp : 2 * d * (m + 1) = 2 * (m * d) + 2 * d := by
      rw [Nat.mul_add, Nat.mul_one, Nat.mul_assoc, Nat.mul_comm d m]
    omega
  exact Nat.lt_succ_iff.1 (Nat.div_lt_of_lt_mul hlt)

theorem roundHalfAway_zero {d : Nat} (hd : 0 < d) : roundHalfAway 0 d = 0 := by
  have hle := roundHalfAway_le (num := 0) (m := 0) hd (by simp)
  unfold roundHalfAway
  dsimp only
  rw [Nat.le_zero.1 hle]
  rfl

theorem roundHalfAway_mul (z : Int) {d : Nat} (hd : 0 < d) : roundHalfAway (z * d) d = z := by
  have habs : (z * d).natAbs = z.natAbs * d := by rw [Int.natAbs_mul, Int.natAbs_natCast]
  have hquot : (2 * (z.natAbs * d) + d) / (2 * d) = z.natAbs := by
    have hle := roundHalfAway_le (num := z * d) (m := z.natAbs) hd (Nat.le_of_eq habs)
    rw [habs] at hle
    have hge : z.natAbs ≤ (2 * (z.natAbs * d) + d) / (2 * d) := by
      rw [Nat.le_div_iff_mul_le (by omega)]
      have hexp : z.natAbs * (2 * d) = 2 * (z.natAbs * d) := Nat.mul_left_comm _ _ _
      omega
    omega
  have hsign : z * d < 0 ↔ z < 0 := by
    have hd' : (0 : Int) < d := by omega
    refine ⟨fun h => ?_, fun h => Int.mul_neg_of_neg_of_pos h hd'⟩
    refine Classical.byContradiction fun hn => ?_
    exact absurd h (Int.not_lt.2 (Int.mul_nonneg (Int.not_lt.1 hn) (Int.le_of_lt hd')))
  unfold roundHalfAway
  dsimp only
  rw [habs, hquot]
  split
  next h => have := hsign.1 h; omega
  next h => have := mt hsign.2 h; omega

/-- The rounded offset of a part of a stroke lies between the endpoints' offsets. -/
theorem roundHalfAway_between {z e : Int} {d : Nat} (hd : 0 < d) (he : 0 ≤ e) (hed : e ≤ d) :
    min 0 z ≤ roundHalfAway (z * e) d ∧ roundHalfAway (z * e) d ≤ max 0 z := by
  have habs : (z * e).natAbs ≤ z.natAbs * d := by
    rw [Int.natAbs_mul]
    exact Nat.mul_le_mul_left _ (by omega)
  have hle := roundHalfAway_le hd habs
  have hsign : 0 ≤ z → ¬ z * e < 0 := fun hz => Int.not_lt.2 (Int.mul_nonneg hz he)
  by_cases hz : 0 ≤ z
  · unfold roundHalfAway
    dsimp only
    rw [if_neg (hsign hz)]
    generalize (2 * (z * e).natAbs + d) / (2 * d) = q at hle ⊢
    omega
  · rcases Int.lt_or_eq_of_le (Int.mul_nonpos_of_nonpos_of_nonneg (Int.le_of_lt (Int.not_le.1 hz)) he) with hneg | hzero
    · unfold roundHalfAway
      dsimp only
      rw [if_pos hneg]
      generalize (2 * (z * e).natAbs + d) / (2 * d) = q at hle ⊢
      omega
    · rw [hzero, roundHalfAway_zero hd]
      omega

/-- One coordinate of a beam point: the first endpoint plus the rounded offset, between the endpoints. -/
theorem beamAxis_eq (a b : Nat) {e : Int} {d : Nat} (hd : 0 < d) (he : 0 ≤ e) (hed : e ≤ d) :
    (beamAxis a b e d : Int) = a + roundHalfAway (((b : Int) - a) * e) d ∧ min a b ≤ beamAxis a b e d ∧
      beamAxis a b e d ≤ max a b := by
  have hbetween := roundHalfAway_between (z := (b : Int) - a) hd he hed
  unfold beamAxis
  omega

theorem beamAxis_first (a b : Nat) {d : Nat} (hd : 0 < d) : beamAxis a b 0 d = a := by
  unfold beamAxis
  rw [Int.mul_zero, roundHalfAway_zero hd, Int.add_zero]
  exact Int.toNat_natCast a

theorem beamAxis_last (a b : Nat) {d : Nat} (hd : 0 < d) : beamAxis a b d d = b := by
  unfold beamAxis
  rw [roundHalfAway_mul _ hd]
  omega

/-- Settles O38, by the arm's direction and, for the beam point, the clamped part of the stroke. -/
theorem beamPointLiesOnTheStroke : Obligations.BeamPointLiesOnTheStroke := by
  refine ⟨fun c p q => ⟨fun h => ?_, fun hs hy hx => ?_, fun hs hx hy => ?_⟩, fun r tc hlt => ?_⟩
  · unfold Cross.armPoint
    by_cases hs : c.state = .parked
    · exact if_pos hs
    · have hiff := h.resolve_left hs
      rw [if_neg hs, if_neg (fun hh => hh.2 (hiff.2 hh.1)), if_neg (fun hv => hv.2 (hiff.1 hv.1))]
  · unfold Cross.armPoint
    rw [if_neg hs, if_pos ⟨hy, hx⟩]
  · unfold Cross.armPoint
    rw [if_neg hs, if_neg (fun hh => hy hh.1), if_pos ⟨hx, hy⟩]
  · obtain ⟨hlo, hhi, hfirst, hlast, hinside⟩ := clampTime_bounds tc hlt
    have hd : 0 < r.stop - r.start := by omega
    have hed : clampTime tc r.start r.stop - r.start ≤ ((r.stop - r.start : Nat) : Int) := by omega
    obtain ⟨hxeq, hx⟩ := beamAxis_eq r.stroke.x0.toNat r.stroke.x1.toNat hd (Int.sub_nonneg.2 hlo) hed
    obtain ⟨hyeq, hy⟩ := beamAxis_eq r.stroke.y0.toNat r.stroke.y1.toNat hd (Int.sub_nonneg.2 hlo) hed
    refine ⟨hx, hy, fun h => ?_, fun h => ?_, fun c h1 h2 hc => ?_⟩
    · unfold ReadStroke.beamPoint
      dsimp only
      rw [hfirst h, Int.sub_self, beamAxis_first _ _ hd, beamAxis_first _ _ hd]
    · have hwhole : (r.stop : Int) - r.start = ((r.stop - r.start : Nat) : Int) := by omega
      unfold ReadStroke.beamPoint
      dsimp only
      rw [hlast h, hwhole, beamAxis_last _ _ hd, beamAxis_last _ _ hd]
    · rw [hinside h1 h2, ← hc] at hxeq hyeq
      unfold ReadStroke.beamPoint
      dsimp only
      rw [hinside h1 h2, ← hc]
      exact ⟨hxeq, hyeq⟩

end Sys2Proof.Machine
end

section
/-! PROOFS. The candidate set of a hit and its hand-off (R81, R83 to R91, R99, R109; O37). -/

namespace Sys2Proof.Machine

/-! ## The lookup (R83, R85) -/

theorem lookUp_of_entry {s : State} {r : ReadStroke} {e : Entry} (hseg : r.seg ≠ Config.crossSegment) (he : s.entry r.seg = some e)
    (hcls : e.cls ≠ .mark) (hdet : e.detectable = true) :
    s.lookUp r =
      some
        { read := r, entry := e
          key := { seg := r.seg, element := if e.granularity = .element then some r.element.index else none } } := by
  unfold State.lookUp
  rw [if_neg hseg, he]
  exact if_neg (fun h => h.elim hcls (fun hf => Bool.false_ne_true (hf.symm.trans hdet)))

theorem lookUp_of_nothing {s : State} {r : ReadStroke}
    (h : r.seg = 1023 ∨ s.entry r.seg = none ∨ (∃ e, s.entry r.seg = some e ∧ (e.cls = .mark ∨ e.detectable = false))) :
    s.lookUp r = none := by
  unfold State.lookUp
  by_cases hseg : r.seg = Config.crossSegment
  · exact if_pos hseg
  · rw [if_neg hseg]
    rcases h.resolve_left hseg with hnone | ⟨e, he, hbar⟩
    · rw [hnone]
    · rw [he]
      exact if_pos hbar

/-- What stands after the lookup: an entry of the record's segment that may be picked. -/
theorem lookUp_eq_some {s : State} {r : ReadStroke} {c : Keyed} (h : s.lookUp r = some c) :
    c.key.seg ≠ Config.crossSegment ∧ s.entry c.key.seg = some c.entry ∧ c.entry.cls ≠ .mark ∧ c.entry.detectable = true := by
  unfold State.lookUp at h
  split at h
  · exact nomatch h
  next hseg =>
    split at h
    · exact nomatch h
    next e he =>
      split at h
      · exact nomatch h
      next hbar =>
        cases Option.some.inj h
        obtain ⟨hcls, hdet⟩ := not_or.1 hbar
        exact ⟨hseg, he, hcls, eq_true_of_ne_false hdet⟩

/-! ## One candidate for each key (R85) -/

theorem firstOfKeys_sublist (l : List Keyed) : (firstOfKeys l).Sublist l := by
  induction l with
  | nil => exact List.Sublist.refl _
  | cons c rest ih => exact ((List.filter_sublist).trans ih).cons_cons c

/-- Those left are the ones no earlier one of the list shares its key with. -/
theorem mem_firstOfKeys (l : List Keyed) (c : Keyed) :
    c ∈ firstOfKeys l ↔ ∃ before after, l = before ++ c :: after ∧ ∀ d ∈ before, d.key ≠ c.key := by
  induction l with
  | nil => exact ⟨fun h => absurd h List.not_mem_nil, fun ⟨_, _, h, _⟩ => absurd h (by simp)⟩
  | cons a rest ih =>
    unfold firstOfKeys
    rw [List.mem_cons, List.mem_filter, ih]
    constructor
    · rintro (rfl | ⟨⟨before, after, rfl, hb⟩, hkey⟩)
      · exact ⟨[], rest, rfl, fun d hd => absurd hd List.not_mem_nil⟩
      · refine ⟨a :: before, after, rfl, fun d hd => ?_⟩
        rcases List.mem_cons.1 hd with rfl | hd
        · exact fun heq => of_decide_eq_true hkey heq.symm
        · exact hb d hd
    · rintro ⟨before, after, heq, hb⟩
      match before, heq, hb with
      | [], heq, _ => exact .inl (List.cons.inj heq).1.symm
      | d :: before, heq, hb =>
        obtain ⟨rfl, hrest⟩ := List.cons.inj heq
        exact .inr ⟨⟨before, after, hrest, fun x hx => hb x (List.mem_cons_of_mem _ hx)⟩,
          decide_eq_true (hb a List.mem_cons_self).symm⟩

theorem firstOfKeys_nodup (l : List Keyed) : ((firstOfKeys l).map Keyed.key).Nodup := by
  induction l with
  | nil => exact List.nodup_nil
  | cons c rest ih =>
    unfold firstOfKeys
    rw [List.map_cons, List.nodup_cons]
    refine ⟨fun h => ?_, ih.sublist (List.filter_sublist.map _)⟩
    obtain ⟨d, hd, hkey⟩ := List.mem_map.1 h
    exact of_decide_eq_true (List.mem_filter.1 hd).2 hkey

/-! ## The filter list's treatment and the weight (R86, R87) -/

theorem filtered_of_rejected {c : Keyed} {list : List FilterEntry} (tc : Int)
    (h : walk c.presented list (if c.entry.cls = .menu then 0 else c.entry.priority) c.entry.owner = .rejected) :
    c.filtered tc list = none := by
  unfold Keyed.filtered
  rw [h]

theorem filtered_of_stands {c : Keyed} {list : List FilterEntry} {p : Fin 8} {route : LinkSet} (tc : Int)
    (h : walk c.presented list (if c.entry.cls = .menu then 0 else c.entry.priority) c.entry.owner = .stands p route) :
    c.filtered tc list =
      some
        { key := c.key, cls := c.entry.cls, tag := c.entry.tag, priority := candidatePriority c.entry.cls p
          route := route, weight := 0, point := c.read.beamPoint tc, element := c.read.element.index
          saturated := c.read.element.saturated } := by
  unfold Keyed.filtered
  rw [h]

/-- What a candidate keeps of what was presented to the filter list. -/
theorem filtered_eq_some {tc : Int} {list : List FilterEntry} {c : Keyed} {k : Candidate} (h : c.filtered tc list = some k) :
    k.key = c.key ∧ k.cls = c.entry.cls ∧ k.tag = c.entry.tag ∧ ∃ p, k.priority = candidatePriority c.entry.cls p := by
  cases hw : walk c.presented list (if c.entry.cls = .menu then 0 else c.entry.priority) c.entry.owner with
  | rejected => exact nomatch (filtered_of_rejected tc hw).symm.trans h
  | stands p route =>
    cases Option.some.inj ((filtered_of_stands tc hw).symm.trans h)
    exact ⟨rfl, rfl, rfl, p, rfl⟩

theorem candidatePriority_le {cls : SegClass} (p : Fin 8) (h : cls ≠ .menu) : candidatePriority cls p ≤ 7 := by
  unfold candidatePriority
  rw [if_neg h]
  omega

theorem filterMap_filtered_keys (tc : Int) (list : List FilterEntry) (l : List Keyed) :
    ((l.filterMap (Keyed.filtered tc list)).map Candidate.key).Sublist (l.map Keyed.key) := by
  induction l with
  | nil => exact List.Sublist.refl _
  | cons c rest ih =>
    cases hc : c.filtered tc list with
    | none =>
      rw [List.filterMap_cons_none hc]
      exact ih.cons _
    | some k =>
      rw [List.filterMap_cons_some hc, List.map_cons, (filtered_eq_some hc).1]
      exact ih.cons_cons _

theorem spreadWeight_keys (l : List Candidate) : (spreadWeight l).map Candidate.key = l.map Candidate.key := by
  unfold spreadWeight
  rw [List.map_map]
  rfl

theorem spreadWeight_length (l : List Candidate) : (spreadWeight l).length = l.length := List.length_map _

theorem candidateSet_nodup (s : State) (tc : Int) (kept : List ReadStroke) :
    ((s.candidateSet tc kept).map Candidate.key).Nodup := by
  unfold State.candidateSet
  rw [spreadWeight_keys]
  exact (firstOfKeys_nodup _).sublist (filterMap_filtered_keys _ _ _)

theorem candidateSet_weight {s : State} {tc : Int} {kept : List ReadStroke} {c : Candidate} (h : c ∈ s.candidateSet tc kept) :
    c.weight = 12 / (s.candidateSet tc kept).length := by
  unfold State.candidateSet at h ⊢
  rw [spreadWeight_length]
  obtain ⟨k, _, rfl⟩ := List.mem_map.1 h
  rfl

/-- The weight divides without remainder by every count of candidates a hit can have. -/
theorem mul_hitWeight_div {k : Nat} (hpos : 0 < k) (hle : k ≤ 4) : k * (12 / k) = 12 := by
  rcases (show k = 1 ∨ k = 2 ∨ k = 3 ∨ k = 4 by omega) with rfl | rfl | rfl | rfl
  · rfl
  · rfl
  · rfl
  · rfl

theorem candidateSet_weights_sum {s : State} {tc : Int} {kept : List ReadStroke} (hpos : s.candidateSet tc kept ≠ [])
    (hle : (s.candidateSet tc kept).length ≤ 4) : ((s.candidateSet tc kept).map Candidate.weight).sum = 12 := by
  have hconst : (s.candidateSet tc kept).map Candidate.weight =
      List.replicate (s.candidateSet tc kept).length (12 / (s.candidateSet tc kept).length) := by
    refine List.eq_replicate_iff.2 ⟨List.length_map _, fun w hw => ?_⟩
    obtain ⟨c, hc, rfl⟩ := List.mem_map.1 hw
    exact candidateSet_weight hc
  rw [hconst, List.sum_replicate_nat]
  exact mul_hitWeight_div (List.length_pos_iff.2 hpos) hle

/-- A candidate of the set comes from an entry that may be picked, by the filter list's answer. -/
theorem mem_candidateSet {s : State} {tc : Int} {kept : List ReadStroke} {c : Candidate} (h : c ∈ s.candidateSet tc kept) :
    c.key.seg ≠ Config.crossSegment ∧
      ∃ e, s.entry c.key.seg = some e ∧ e.cls ≠ .mark ∧ e.detectable = true ∧ c.cls = e.cls ∧ c.tag = e.tag ∧
        (e.cls = .menu → c.priority = 8) ∧ (e.cls = .drawing → c.priority ≤ 7) := by
  unfold State.candidateSet at h
  obtain ⟨k, hk, rfl⟩ := List.mem_map.1 h
  obtain ⟨d, hd, hfiltered⟩ := List.mem_filterMap.1 hk
  obtain ⟨r, -, hlook⟩ := List.mem_filterMap.1 ((firstOfKeys_sublist _).subset hd)
  obtain ⟨hkey, hcls, htag, p, hpri⟩ := filtered_eq_some hfiltered
  obtain ⟨hcross, hentry, hmark, hdet⟩ := lookUp_eq_some hlook
  rw [hkey]
  refine ⟨hcross, d.entry, hentry, hmark, hdet, hcls, htag, fun h => hpri.trans (if_pos h), fun h => ?_⟩
  exact Nat.le_trans (Nat.le_of_eq hpri) (candidatePriority_le p (fun hm => nomatch h.symm.trans hm))

/-! ## The GAP mark and the short read (R58, R81) -/

theorem gapMeets_iff (r : HistoryRecord) (tc : Int) (w : Nat) :
    r.gapMeets tc w = true ↔ r.kind = .gap ∧ ∃ te, r.stop = some te ∧
      ((r.start < te ∧ spanDistance tc r.start te ≤ w) ∨ (te ≤ r.start ∧ ((r.start : Int) - tc).natAbs ≤ w)) := by
  unfold HistoryRecord.gapMeets
  split
  next te hk ht =>
    rw [hk, ht]
    split
    next hlt => simp [hlt, Nat.not_le.2 hlt]
    next hle => simp [hle, Nat.not_lt.1 hle]
  next hno => exact ⟨fun h => absurd h Bool.false_ne_true, fun ⟨hk, te, ht, _⟩ => (hno te hk ht).elim⟩

theorem shortRead_iff (s : State) (tc : Int) :
    s.shortRead tc = true ↔ s.hist.wrapped = true ∧ ∃ r rest, s.hist.ring = r :: rest ∧ tc - s.corr.w < r.start := by
  unfold State.shortRead History.horizon
  cases s.hist.ring with
  | nil => simp
  | cons r rest => simp

/-! ## Contributions (R109) -/

theorem satAdd_eq_min (limit v amount : Nat) : satAdd limit v amount = min limit (v + amount) := by
  unfold satAdd
  split <;> omega

theorem addCandidate_of_split {r : Resolver} {c : Candidate} {before after : List TallyEntry} {e : TallyEntry} (frame : Nat)
    (h : r.tally = before ++ e :: after) (he : e.key = c.key) (hb : ∀ d ∈ before, d.key ≠ c.key) :
    r.addCandidate frame c = { r with tally := before ++ e.contribute frame c :: after } := by
  have hany : r.tally.any (fun e => e.key = c.key) = true :=
    List.any_eq_true.2 ⟨e, by rw [h]; exact List.mem_append_right _ List.mem_cons_self, decide_eq_true he⟩
  unfold Resolver.addCandidate
  rw [if_pos hany, h, contributeTo_of_split frame c before e after he hb]

theorem addCandidate_of_new {r : Resolver} {c : Candidate} (frame : Nat) (h : ∀ e ∈ r.tally, e.key ≠ c.key) :
    r.addCandidate frame c =
      if r.tally.length < Config.tallySize then { r with tally := r.tally ++ [TallyEntry.create frame c] }
      else { r with overflow := true } := by
  have hany : ¬ r.tally.any (fun e => e.key = c.key) = true := fun ha => by
    obtain ⟨e, he, hkey⟩ := List.any_eq_true.1 ha
    exact h e he (of_decide_eq_true hkey)
  unfold Resolver.addCandidate
  exact if_neg hany

/-! ## The hand-off (R91, R99) -/

theorem handOff_of_idle {s : State} (set : List Candidate) (gap : Bool) (h : s.res.attempt = .idle) :
    s.handOff set gap = { s with menu := s.menu.addSet set gap } := by
  unfold State.handOff
  rw [h]

theorem handOff_of_attempt {s : State} (set : List Candidate) (gap : Bool)
    (h : s.res.attempt = .gathering ∨ s.res.attempt = .closing) :
    s.handOff set gap = { s with res := s.res.addSet s.corr.frame set gap } := by
  unfold State.handOff
  split
  next hidle => exact (h.elim (fun h => nomatch h.symm.trans hidle) (fun h => nomatch h.symm.trans hidle))
  next => rfl
  next => rfl
  next hheld => exact (h.elim (fun h => nomatch h.symm.trans hheld) (fun h => nomatch h.symm.trans hheld))

theorem handOff_of_held {s : State} (set : List Candidate) (gap : Bool) (h : s.res.attempt = .held) : s.handOff set gap = s := by
  unfold State.handOff
  rw [h]

/-! ## A hit read from the ring (R82 to R91) -/

theorem readHit_of_empty {s : State} {tc : Int} {kept : List ReadStroke} (hkept : kept = keptRecords tc s.corr.w s.hist.ring)
    (h : s.candidateSet tc kept = []) :
    s.readHit tc =
      if kept.any (fun r => r.seg = Config.crossSegment) then { s with cross := s.cross.armPoints tc kept }
      else State.count { s with cross := s.cross.armPoints tc kept } .unmatched := by
  subst hkept
  unfold State.readHit
  dsimp only
  rw [h]
  rfl

theorem readHit_of_nonempty {s : State} {tc : Int} {kept : List ReadStroke} (hkept : kept = keptRecords tc s.corr.w s.hist.ring)
    (h : s.candidateSet tc kept ≠ []) :
    s.readHit tc =
      State.handOff { s with cross := s.cross.armPoints tc kept } (s.candidateSet tc kept)
        (s.hist.ring.any (fun r => r.gapMeets tc s.corr.w)) := by
  subst hkept
  unfold State.readHit
  dsimp only
  rw [if_neg (fun he => h (List.isEmpty_iff.1 he))]

theorem correlateHit_of_short {s : State} {th : Nat} {tc : Int} (htc : tc = s.correctedTime th) (h : s.shortRead tc = true) :
    s.correlateHit th = ((s.setFlag .historyShort).count .unmatched).hitDone := by
  subst htc
  exact if_pos h

theorem correlateHit_of_read {s : State} {th : Nat} {tc : Int} (htc : tc = s.correctedTime th) (h : ¬ s.shortRead tc = true) :
    s.correlateHit th = (s.readHit tc).hitDone := by
  subst htc
  exact if_neg h

/-- Settles O37, one lemma for each step from the kept records to the hand-off. -/
theorem hitWeightIsSpreadEvenly : Obligations.HitWeightIsSpreadEvenly := by
  refine ⟨?_, fun s r => ⟨lookUp_of_nothing, fun e => lookUp_of_entry⟩,
    fun l => ⟨firstOfKeys_sublist l, mem_firstOfKeys l⟩, ?_, ?_, ?_, fun r frame c => ⟨?_, fun hnew => ⟨fun hroom => ?_, fun hfull => ?_⟩⟩⟩
  · rintro s tc w ring set rfl
    have hle := Nat.le_trans (candidateSet_length s tc _) (keptRecords_length tc w ring)
    exact ⟨hle, fun c hc => candidateSet_weight hc, fun hne => candidateSet_weights_sum hne hle, candidateSet_nodup s tc _,
      fun c hc => mem_candidateSet hc⟩
  · rintro tc list c answer rfl
    exact ⟨filtered_of_rejected tc, fun p route => filtered_of_stands tc⟩
  · rintro s tc kept remaining rfl
    rfl
  · intro s th tc htc
    refine ⟨fun hwrap hring => correlateHit_of_short htc ((shortRead_iff s _).2 ⟨hwrap, hring⟩), ?_⟩
    rintro kept set gap x hread hkept rfl hgap rfl
    have hnot : ¬ s.shortRead tc = true := fun hs => by
      obtain ⟨hwrap, r, rest, hring, hlt⟩ := (shortRead_iff s _).1 hs
      rcases hread with hclear | hin
      · exact Bool.false_ne_true (hclear.symm.trans hwrap)
      · exact absurd (hin r rest hring) (Int.not_le.2 hlt)
    have hgapEq : gap = s.hist.ring.any (fun r => r.gapMeets tc s.corr.w) := by
      rw [Bool.eq_iff_iff, hgap, List.any_eq_true]
      exact exists_congr fun r => and_congr_right fun _ => (gapMeets_iff r _ _).symm
    rw [correlateHit_of_read htc hnot]
    refine ⟨fun hnone hcross => ?_, fun hnone hcross => ?_, fun hset => ?_⟩
    · obtain ⟨r, hr, hseg⟩ := hcross
      rw [readHit_of_empty hkept hnone, if_pos (List.any_eq_true.2 ⟨r, hr, decide_eq_true hseg⟩)]
      rfl
    · rw [readHit_of_empty hkept hnone, if_neg (fun h => ?_)]
      · rfl
      · obtain ⟨r, hr, hseg⟩ := List.any_eq_true.1 h
        exact hcross r hr (of_decide_eq_true hseg)
    · rw [readHit_of_nonempty hkept hset, ← hgapEq]
      exact ⟨fun hidle => congrArg State.hitDone (handOff_of_idle _ _ hidle),
        fun hopen => congrArg State.hitDone (handOff_of_attempt _ _ hopen),
        fun hheld => congrArg State.hitDone (handOff_of_held _ _ hheld)⟩
  · intro before e after hsplit hkey hb
    rw [addCandidate_of_split frame hsplit hkey hb]
    unfold TallyEntry.contribute
    rw [satAdd_eq_min, satAdd_eq_min, satAdd_eq_min]
    rfl
  · rw [addCandidate_of_new frame hnew, if_pos (show r.tally.length < Config.tallySize from hroom)]
    rfl
  · rw [addCandidate_of_new frame hnew, if_neg (show ¬ r.tally.length < Config.tallySize from Nat.not_lt.2 hfull)]

end Sys2Proof.Machine
end

section
/-! PROOFS. The ranking, the decision and what an outcome does (R103 to R119, R139; O39). -/

namespace Sys2Proof.Machine

/-! ## Ranking (R111) -/

/-- An entry is ranked before another, or level with it (R111). -/
def TallyEntry.AtOrBefore (a b : TallyEntry) : Prop :=
  b.priority < a.priority ∨ (a.priority = b.priority ∧
    (b.score < a.score ∨ (a.score = b.score ∧
      (a.key.seg < b.key.seg ∨ (a.key.seg = b.key.seg ∧ elementRank a.key.element ≤ elementRank b.key.element)))))

theorem before_iff (a b : TallyEntry) : a.before b = true ↔ ¬ b.AtOrBefore a := by
  unfold TallyEntry.before TallyEntry.AtOrBefore
  split
  next h => simp only [decide_eq_true_eq]; omega
  next h =>
    split
    next h => simp only [decide_eq_true_eq]; omega
    next h =>
      split
      next h => simp only [decide_eq_true_eq]; omega
      next h => simp only [decide_eq_true_eq]; omega

theorem atOrBefore_total {a b : TallyEntry} (h : ¬ b.AtOrBefore a) : a.AtOrBefore b := by
  unfold TallyEntry.AtOrBefore at *
  omega

theorem atOrBefore_trans {a b c : TallyEntry} (hab : a.AtOrBefore b) (hbc : b.AtOrBefore c) : a.AtOrBefore c := by
  unfold TallyEntry.AtOrBefore at *
  omega

theorem rankInsert_eq : rankInsert = insertBy TallyEntry.before := by
  funext e l
  induction l with
  | nil => rfl
  | cons f rest ih =>
    unfold rankInsert insertBy
    rw [ih]

theorem rank_eq (l : List TallyEntry) : rank l = l.foldr (insertBy TallyEntry.before) [] := by
  induction l with
  | nil => rfl
  | cons e rest ih => rw [rank, ih, rankInsert_eq, List.foldr_cons]

theorem rank_perm (l : List TallyEntry) : (rank l).Perm l := by
  rw [rank_eq]
  exact perm_foldr_insertBy l

theorem rank_pairwise (l : List TallyEntry) : (rank l).Pairwise TallyEntry.AtOrBefore := by
  rw [rank_eq]
  refine pairwise_foldr_insertBy (R := TallyEntry.AtOrBefore) (fun a b h => ?_) (fun a b h => ?_) (fun a b c => atOrBefore_trans) l
  · exact atOrBefore_total ((before_iff a b).1 h)
  · refine Classical.byContradiction fun hn => ?_
    exact Bool.false_ne_true (h.symm.trans ((before_iff a b).2 hn))

theorem topGroup_eq {tally : List TallyEntry} {leader : TallyEntry} {rest : List TallyEntry} (h : rank tally = leader :: rest) :
    topGroup tally = (leader :: rest).filter (fun e => e.priority = leader.priority) := by
  unfold topGroup
  rw [h]
  exact (List.filter_cons_of_pos (p := fun e : TallyEntry => e.priority = leader.priority) (decide_eq_true rfl)).symm

/-! ## The decision (R112 to R115) -/

theorem meetsMargin_iff (d : Nat) (leader : TallyEntry) (rest : List TallyEntry) :
    meetsMargin d leader rest = true ↔ ∀ second ∈ rest.head?, second.score + d ≤ leader.score := by
  cases rest with
  | nil => simp [meetsMargin]
  | cons second more => simp [meetsMargin]

theorem menuWins_iff {r : Resolver} {leader : TallyEntry} {rest : List TallyEntry} (h : topGroup r.tally = leader :: rest) :
    menuWins r = true ↔ leader.cls = .menu ∧ r.t ≤ leader.score ∧ ∀ second ∈ rest.head?, second.score + r.d ≤ leader.score := by
  unfold menuWins
  rw [h]
  dsimp only
  rw [Bool.and_eq_true, Bool.and_eq_true, meetsMargin_iff, beq_iff_eq, meetsThreshold, decide_eq_true_eq, and_assoc]

theorem menuWins_of_empty {r : Resolver} (h : topGroup r.tally = []) : menuWins r = false := by
  unfold menuWins
  rw [h]

theorem decideOutcome_of_cross {r : Resolver} {cross : CrossState} (hmode : r.mode = .point) (hcross : cross = .tracking)
    (hwins : ¬ menuWins r = true) : decideOutcome r cross = .pointFromCross := by
  unfold decideOutcome
  rw [hmode, hcross, Bool.not_eq_true] at *
  exact if_pos (by rw [hwins]; rfl)

/-- R112 gives nothing unless the cross tracks in POINT mode and no MENU leader wins. -/
theorem not_fromCross {r : Resolver} {cross : CrossState}
    (h : r.mode = .element ∨ cross ≠ .tracking ∨ menuWins r = true) :
    ¬ (r.mode == .point && cross == .tracking && !menuWins r) = true := by
  intro hall
  simp only [Bool.and_eq_true, beq_iff_eq, Bool.not_eq_true'] at hall
  obtain ⟨⟨hmode, hcross⟩, hwins⟩ := hall
  rcases h with h | h | h
  · exact nomatch hmode.symm.trans h
  · exact h hcross
  · exact Bool.false_ne_true (hwins.symm.trans h)

theorem decideOutcome_of_empty {r : Resolver} {cross : CrossState} (h : topGroup r.tally = []) :
    decideOutcome r cross = if r.mode = .point ∧ cross = .tracking then .pointFromCross else .missedNone := by
  by_cases hc : r.mode = .point ∧ cross = .tracking
  · rw [if_pos hc]
    exact decideOutcome_of_cross hc.1 hc.2 (by rw [menuWins_of_empty h]; exact Bool.false_ne_true)
  · have hnot : r.mode = .element ∨ cross ≠ .tracking ∨ menuWins r = true := by
      rcases hm : r.mode with _ | _
      · exact .inl rfl
      · exact .inr (.inl fun ht => hc ⟨hm, ht⟩)
    unfold decideOutcome
    rw [if_neg (not_fromCross hnot), if_neg hc, h]

section Led

variable {r : Resolver} {cross : CrossState} {leader : TallyEntry} {rest : List TallyEntry}

/-- A group with a leader, where R112 does not decide. -/
structure Led (r : Resolver) (cross : CrossState) (leader : TallyEntry) (rest : List TallyEntry) : Prop where
  group : topGroup r.tally = leader :: rest
  elsewhere : r.mode = .element ∨ cross ≠ .tracking ∨ menuWins r = true

theorem Led.weak (h : Led r cross leader rest) (hlow : leader.score < r.t) : decideOutcome r cross = .missedWeak := by
  unfold decideOutcome
  rw [if_neg (not_fromCross h.elsewhere), h.group]
  dsimp only
  rw [if_pos (by rw [meetsThreshold, decide_eq_false (by omega)]; rfl)]

theorem Led.ambiguous (h : Led r cross leader rest) (hmeets : r.t ≤ leader.score)
    (hmargin : ¬ ∀ second ∈ rest.head?, second.score + r.d ≤ leader.score) :
    decideOutcome r cross = .ambiguous ((leader :: rest).take 4) := by
  have hfalse : meetsMargin r.d leader rest = false := by
    rw [← Bool.not_eq_true, meetsMargin_iff]
    exact hmargin
  unfold decideOutcome
  rw [if_neg (not_fromCross h.elsewhere), h.group]
  dsimp only
  rw [if_neg (by rw [meetsThreshold, decide_eq_true hmeets]; exact Bool.false_ne_true), if_pos (by rw [hfalse]; rfl)]
  rfl

theorem Led.clear (h : Led r cross leader rest) (hmeets : r.t ≤ leader.score)
    (hmargin : ∀ second ∈ rest.head?, second.score + r.d ≤ leader.score) :
    (leader.cls = .menu → decideOutcome r cross = .menu leader) ∧
      (leader.cls ≠ .menu → r.mode = .element → decideOutcome r cross = .element leader) ∧
        (leader.cls ≠ .menu → r.mode = .point → decideOutcome r cross = .pointFromLeader leader) := by
  have hmarginTrue := (meetsMargin_iff r.d leader rest).2 hmargin
  unfold decideOutcome
  rw [if_neg (not_fromCross h.elsewhere), h.group]
  dsimp only
  rw [if_neg (by rw [meetsThreshold, decide_eq_true hmeets]; exact Bool.false_ne_true),
    if_neg (by rw [hmarginTrue]; exact Bool.false_ne_true)]
  refine ⟨fun hcls => if_pos (by rw [hcls]; rfl), fun hcls hmode => ?_, fun hcls hmode => ?_⟩
  · rw [if_neg (fun hb => hcls (eq_of_beq hb)), hmode]
  · rw [if_neg (fun hb => hcls (eq_of_beq hb)), hmode]

end Led

/-! ## The notices (R116, R117) -/

theorem linkSet_ext {a b : LinkSet} (h : ∀ n, a.has n = b.has n) : a = b := by
  obtain ⟨a0, a1⟩ := a
  obtain ⟨b0, b1⟩ := b
  have h0 : a0 = b0 := h .link0
  have h1 : a1 = b1 := h .link1
  rw [h0, h1]

theorem has_union (a b : LinkSet) (n : Link) : (a.union b).has n = (a.has n || b.has n) := by
  cases n <;> rfl

/-- The route of an AMBIGUOUS outcome is the union of those listed (R118). -/
theorem has_foldl_union (l : List TallyEntry) (a : LinkSet) (n : Link) :
    (l.foldl (fun r e => r.union e.route) a).has n = true ↔ a.has n = true ∨ ∃ e ∈ l, e.route.has n = true := by
  induction l generalizing a with
  | nil => simp
  | cons e rest ih =>
    rw [List.foldl_cons, ih, has_union, Bool.or_eq_true, or_assoc]
    simp only [List.mem_cons, exists_eq_or_imp]

theorem foldl_union_eq {l : List TallyEntry} {route : LinkSet}
    (h : ∀ n : Link, route.has n = true ↔ ∃ e ∈ l, e.route.has n = true) :
    l.foldl (fun r e => r.union e.route) .none = route := by
  refine linkSet_ext fun n => ?_
  have hnone : LinkSet.none.has n = false := by cases n <;> rfl
  rw [Bool.eq_iff_iff, h, has_foldl_union, hnone]
  exact or_iff_right Bool.false_ne_true

theorem ambiguousNotice_eq {r : Resolver} {listed : List TallyEntry} {x : PickNotice} (hkind : x.kind = .ambiguous)
    (hattempt : x.attempt = r.number) (hframes : x.frames = r.frames) (hreason : x.reason = .absent) (hprimary : x.primary = none)
    (hflags : x.flags = { r.noticeFlags with elementSaturated := listed.any (fun e => e.saturated) })
    (hlist : x.list = listed.map TallyEntry.listed) : ambiguousNotice r listed = x := by
  obtain ⟨kind, attempt, frames, reason, flags, primary, list⟩ := x
  subst hkind hattempt hframes hreason hprimary hflags hlist
  rfl

theorem outcome_ambiguous (s : State) (listed : List TallyEntry) :
    s.outcome (.ambiguous listed) =
      (s.post (listed.foldl (fun r e => r.union e.route) .none) (.pick (ambiguousNotice s.res listed))).count .ambiguous := rfl

/-! ## The MENU outcome and its action (R118, R139) -/

theorem menuNotifies_iff (s : State) (seg : Nat) :
    menuNotifies s seg = true ↔
      ∀ e b, s.entry seg = some e → e.binding = some b → b.action = .notify ∨ b.notify = true := by
  unfold menuNotifies
  cases s.entry seg with
  | none => exact ⟨fun _ _ _ he => (Option.some_ne_none _ he.symm).elim, fun _ => rfl⟩
  | some e =>
    dsimp only
    cases hb : e.binding with
    | none =>
      refine ⟨fun _ e' b he hb' => ?_, fun _ => rfl⟩
      cases he
      exact (Option.some_ne_none b (hb'.symm.trans hb)).elim
    | some b =>
      dsimp only
      rw [Bool.or_eq_true, beq_iff_eq]
      refine ⟨fun h e' b' he hb' => ?_, fun h => h e b rfl hb⟩
      cases he
      cases hb'.symm.trans hb
      exact h

theorem menuOutcome_of_told {s : State} {seg : Nat} (route : LinkSet) (x : PickNotice) (h : menuNotifies s seg = true) :
    s.menuOutcome seg route x = (State.echo ((s.post route (.pick x)).count .picks) seg).runMenuAction seg := by
  unfold State.menuOutcome
  rw [if_pos h]

theorem menuOutcome_of_withheld {s : State} {seg : Nat} (route : LinkSet) (x : PickNotice) (h : ¬ menuNotifies s seg = true) :
    s.menuOutcome seg route x = (State.echo (s.count .picks) seg).runMenuAction seg := by
  unfold State.menuOutcome
  rw [if_neg h]

theorem runMenuAction_of_unbound {s : State} {seg : Nat} (h : ∀ e, s.entry seg = some e → e.binding = none) :
    s.runMenuAction seg = s := by
  unfold State.runMenuAction
  cases he : s.entry seg with
  | none => rfl
  | some e =>
    dsimp only
    rw [h e he]

theorem runMenuAction_of_bound {s : State} {seg : Nat} {e : Entry} {b : Binding} (he : s.entry seg = some e)
    (hb : e.binding = some b) :
    (b.action = .notify → s.runMenuAction seg = s) ∧
      (∀ p, b.action = .page p → s.runMenuAction seg = s.stackOp (.push p)) ∧
        (b.action = .back → s.runMenuAction seg = s.stackOp .back) ∧
          (b.action = .home → s.runMenuAction seg = s.stackOp .home) ∧
            ∀ m, b.action = .mode m → s.runMenuAction seg = s.setMode m e.owner := by
  unfold State.runMenuAction
  rw [he]
  dsimp only
  rw [hb]
  dsimp only
  refine ⟨fun h => ?_, fun p h => ?_, fun h => ?_, fun h => ?_, fun m h => ?_⟩
  · rw [h]
  · rw [h]
  · rw [h]
  · rw [h]
  · rw [h]

/-! ## After an outcome (R103 to R107) -/

theorem loseAttempt_of_open {s : State} (reason : PickReason) (h : s.res.attempt = .gathering ∨ s.res.attempt = .closing) :
    s.loseAttempt reason = (s.lostOutcome reason).afterOutcome := by
  unfold State.loseAttempt
  split
  next => rfl
  next => rfl
  next hidle => exact h.elim (fun h => nomatch h.symm.trans hidle) (fun h => nomatch h.symm.trans hidle)
  next hheld => exact h.elim (fun h => nomatch h.symm.trans hheld) (fun h => nomatch h.symm.trans hheld)

theorem loseAttempt_of_closed {s : State} (reason : PickReason) (h : s.res.attempt = .idle ∨ s.res.attempt = .held) :
    s.loseAttempt reason = s := by
  unfold State.loseAttempt
  split
  next hg => exact h.elim (fun h => nomatch h.symm.trans hg) (fun h => nomatch h.symm.trans hg)
  next hc => exact h.elim (fun h => nomatch h.symm.trans hc) (fun h => nomatch h.symm.trans hc)
  next => rfl
  next => rfl

theorem afterOutcome_of_up {s : State} (h : s.pen.tipDebounced = .up) : s.afterOutcome = s.endAttempt .idle := by
  unfold State.afterOutcome
  rw [h]

theorem afterOutcome_of_down {s : State} (h : s.pen.tipDebounced = .down) :
    s.afterOutcome = if s.res.releaseSeen then (s.endAttempt .idle).tipDownIdle else s.endAttempt .held := by
  unfold State.afterOutcome
  rw [h]

/-- Settles O39, one lemma for each of the ranking, the decision's cases, the notices and what follows. -/
theorem outcomeIsDecidedInOrder : Obligations.OutcomeIsDecidedInOrder := by
  refine ⟨?_, ?_, fun s seg => ⟨runMenuAction_of_unbound, fun e b => runMenuAction_of_bound⟩, ?_,
    fun tally => ⟨rank_perm tally, rank_pairwise tally, fun _ _ => topGroup_eq⟩, ?_⟩
  · rintro s bare picked full rfl rfl rfl
    refine ⟨rfl, rfl, rfl, ?_, fun e => ⟨rfl, rfl, ?_⟩, fun reason => ⟨loseAttempt_of_open reason, loseAttempt_of_closed reason⟩⟩
    · intro listed route x hroute hkind hattempt hframes hreason hprimary hflags hlist
      rw [outcome_ambiguous, foldl_union_eq hroute, ambiguousNotice_eq hkind hattempt hframes hreason hprimary hflags hlist]
    · rintro z rfl
      rfl
  · rintro s a z seg route x htold hwithheld rfl
    by_cases hn : menuNotifies s seg = true
    · rw [menuOutcome_of_told route x hn, ← htold ((menuNotifies_iff s seg).1 hn)]
      rfl
    · have hbound : ∃ e b, s.entry seg = some e ∧ e.binding = some b ∧ b.action ≠ .notify ∧ b.notify = false := by
        refine Classical.byContradiction fun hnone => hn ((menuNotifies_iff s seg).2 fun e b he hb => ?_)
        refine Classical.byContradiction fun hneither => hnone ⟨e, b, he, hb, fun hact => hneither (.inl hact), ?_⟩
        exact Bool.eq_false_iff.2 fun hflag => hneither (.inr hflag)
      rw [menuOutcome_of_withheld route x hn, hwithheld hbound]
      rfl
  · rintro s e rfl
    refine ⟨rfl, afterOutcome_of_up, fun hdown hseen => ?_, fun hdown hseen => ?_⟩
    · rw [afterOutcome_of_down hdown, if_pos hseen]
      exact (tipDown_of_idle rfl).symm
    · rw [afterOutcome_of_down hdown, if_neg (by rw [hseen]; exact Bool.false_ne_true)]
      rfl
  · intro r cross leader rest
    refine ⟨decideOutcome_of_empty, fun hgroup => ⟨fun hmode hcross hwins => ?_, fun helse => ?_⟩⟩
    · exact decideOutcome_of_cross hmode hcross (fun h => hwins ((menuWins_iff hgroup).1 h))
    · have hled : Led r cross leader rest := ⟨hgroup, helse.imp_right (Or.imp_right (menuWins_iff hgroup).2)⟩
      refine ⟨hled.weak, fun hmeets => ⟨fun second more hrest hlt => ?_, hled.clear hmeets⟩⟩
      refine hled.ambiguous hmeets fun hall => ?_
      have hsecond := hall second (by rw [hrest]; rfl)
      omega

end Sys2Proof.Machine
end

section
/-! PROOFS. Characters and complete frames (R169, R170, R172, R173, R189; O40, O41). -/

namespace Sys2Proof.Machine

/-! ## Characters (R170) -/

theorem headPasses_iff (b : Byte) : headPasses b = true ↔ b.getLsbD 7 ≠ b.getLsbD 6 := bne_iff_ne

theorem take_head_of_passing {b : Byte} (g : Nat) (h : b.getLsbD 7 ≠ b.getLsbD 6) :
    Receiver.take (.receiving [] g) b = .goesOn (.receiving [b] 0) := if_pos ((headPasses_iff b).2 h)

theorem take_head_of_failing {b : Byte} (g : Nat) (h : b.getLsbD 7 = b.getLsbD 6) :
    Receiver.take (.receiving [] g) b = if b = 0xC3#8 then .goesOn (.receiving [] 0) else .fails .sync :=
  if_neg (fun hp => (headPasses_iff b).1 hp h)

/-- Settles O40, by the stages of a frame and the outcome of a character. -/
theorem receiverFramesCharacters : Obligations.ReceiverFramesCharacters := by
  refine ⟨fun b head len payload g => ⟨fun h => if_neg h, rfl, take_head_of_passing g, take_head_of_failing g,
    fun h => if_pos h, fun h => if_neg (Nat.not_lt.2 h), fun h => if_pos h, fun h => take_check h head b g⟩, ?_⟩
  rintro dt n b s u rfl
  refine ⟨rfl, fun rx h => ?_, fun reason h => ?_, fun f h hf => ?_⟩
  · simp only [exec, execCharacterTaken, State.characterTaken, Bool.not_true, Bool.false_eq_true, if_false, h]
    rfl
  · simp only [exec, execCharacterTaken, execFrameFailed, State.characterTaken, Bool.not_true, Bool.false_eq_true, if_false, h]
  · simp only [exec, execCharacterTaken, execLinkFrameComplete, State.characterTaken, Bool.not_true, Bool.false_eq_true,
      if_false, h, if_pos hf]

/-! ## What a frame is read as (R189, 12.3) -/

/-- A payload reader takes the payloads of one length and no other. -/
def TakesLength (read : List Byte → Option LinkCmd) (k : Nat) : Prop := ∀ p, read p = none ↔ p.length ≠ k

theorem takesLength_empty (c : LinkCmd) : TakesLength (parseEmpty c) 0 := fun p => by
  unfold parseEmpty
  split
  next => simp
  next h => simpa using h

theorem takesLength_byte (f : Byte → LinkCmd) : TakesLength (parseByte f) 1 := fun p => by
  unfold parseByte
  split
  next => simp
  next h => exact ⟨fun _ hl => let a :: [] := p; h a rfl, fun _ => rfl⟩

theorem takesLength_twoBytes (f : Byte → Byte → LinkCmd) : TakesLength (parseTwoBytes f) 2 := fun p => by
  unfold parseTwoBytes
  split
  next => simp
  next h => exact ⟨fun _ hl => let [a, b] := p; h a b rfl, fun _ => rfl⟩

theorem takesLength_word (f : Word → LinkCmd) : TakesLength (parseWord f) 2 := fun p => by
  unfold parseWord
  split
  next => simp
  next h => exact ⟨fun _ hl => let [a, b] := p; h a b rfl, fun _ => rfl⟩

theorem takesLength_wordByte (f : Word → Byte → LinkCmd) : TakesLength (parseWordByte f) 3 := fun p => by
  unfold parseWordByte
  split
  next => simp
  next h => exact ⟨fun _ hl => let [a, b, c] := p; h a b c rfl, fun _ => rfl⟩

theorem takesLength_twoWords (f : Word → Word → LinkCmd) : TakesLength (parseTwoWords f) 4 := fun p => by
  unfold parseTwoWords
  split
  next => simp
  next h => exact ⟨fun _ hl => let [a, b, c, d] := p; h a b c d rfl, fun _ => rfl⟩

theorem takesLength_portParams : TakesLength parsePortParams 4 := fun p => by
  unfold parsePortParams
  split
  next => simp
  next h => exact ⟨fun _ hl => let [a, b, c, d] := p; h a b c d rfl, fun _ => rfl⟩

theorem takesLength_penParams : TakesLength parsePenParams 5 := fun p => by
  unfold parsePenParams
  split
  next => simp
  next h => exact ⟨fun _ hl => let [a, b, c, d, e] := p; h a b c d e rfl, fun _ => rfl⟩

theorem takesLength_segMenu : TakesLength parseSegMenu 6 := fun p => by
  unfold parseSegMenu
  split
  next => simp
  next h => exact ⟨fun _ hl => let [a, b, c, d, e, f] := p; h a b c d e f rfl, fun _ => rfl⟩

theorem takesLength_pickParams : TakesLength parsePickParams 8 := fun p => by
  unfold parsePickParams
  split
  next => simp
  next h => exact ⟨fun _ hl => let [a, b, c, d, e, f, g, i] := p; h a b c d e f g i rfl, fun _ => rfl⟩

theorem takesLength_segDefine : TakesLength parseSegDefine 9 := fun p => by
  unfold parseSegDefine
  split
  next => simp
  next h => exact ⟨fun _ hl => let [a, b, c, d, e, f, g, i, j] := p; h a b c d e f g i j rfl, fun _ => rfl⟩

theorem takesLength_segSet : TakesLength parseSegSet 9 := fun p => by
  unfold parseSegSet
  split
  next => simp
  next h => exact ⟨fun _ hl => let [a, b, c, d, e, f, g, i, j] := p; h a b c d e f g i j rfl, fun _ => rfl⟩

theorem takesLength_snapSet : TakesLength parseSnapSet 12 := fun p => by
  unfold parseSnapSet
  split
  next => simp
  next h => exact ⟨fun _ hl => let [a, b, c, d, e, f, g, i, j, k, l, m] := p; h a b c d e f g i j k l m rfl, fun _ => rfl⟩

theorem takesLength_viewSet : TakesLength parseViewSet 13 := fun p => by
  unfold parseViewSet
  split
  next => simp
  next h => exact ⟨fun _ hl => let [a, b, c, d, e, f, g, i, j, k, l, m, n] := p; h a b c d e f g i j k l m n rfl, fun _ => rfl⟩

theorem takesLength_filterInsert : TakesLength parseFilterInsert 14 := fun p => by
  unfold parseFilterInsert
  split
  next => simp
  next h =>
    exact ⟨fun _ hl => let [a, b, c, d, e, f, g, i, j, k, l, m, n, o] := p; h a b c d e f g i j k l m n o rfl, fun _ => rfl⟩

/-- The lengths that 12.3 gives the payloads of types 01h to 22h. -/
def payloadLengths : List Nat :=
  [9, 9, 2, 2, 6, 2, 13, 3, 14, 1, 2, 1, 1, 0, 0, 1] ++ [4, 0, 3, 0, 4, 5, 0, 8, 1, 0, 12, 1, 2, 1, 0, 0, 1, 0]

/-- A type that names a command has a reader, of the length that 12.3 gives the type. -/
theorem payloadReader_of_named : ∀ k < 0x22, ∃ read len,
    payloadReader (k + 1) = some read ∧ payloadLengths[k]? = some len ∧ TakesLength read len
  | 0x00, _ => ⟨_, _, rfl, rfl, takesLength_segDefine⟩
  | 0x01, _ => ⟨_, _, rfl, rfl, takesLength_segSet⟩
  | 0x02, _ => ⟨_, _, rfl, rfl, takesLength_word _⟩
  | 0x03, _ => ⟨_, _, rfl, rfl, takesLength_word _⟩
  | 0x04, _ => ⟨_, _, rfl, rfl, takesLength_segMenu⟩
  | 0x05, _ => ⟨_, _, rfl, rfl, takesLength_word _⟩
  | 0x06, _ => ⟨_, _, rfl, rfl, takesLength_viewSet⟩
  | 0x07, _ => ⟨_, _, rfl, rfl, takesLength_wordByte _⟩
  | 0x08, _ => ⟨_, _, rfl, rfl, takesLength_filterInsert⟩
  | 0x09, _ => ⟨_, _, rfl, rfl, takesLength_byte _⟩
  | 0x0A, _ => ⟨_, _, rfl, rfl, takesLength_twoBytes _⟩
  | 0x0B, _ => ⟨_, _, rfl, rfl, takesLength_byte _⟩
  | 0x0C, _ => ⟨_, _, rfl, rfl, takesLength_byte _⟩
  | 0x0D, _ => ⟨_, _, rfl, rfl, takesLength_empty _⟩
  | 0x0E, _ => ⟨_, _, rfl, rfl, takesLength_empty _⟩
  | 0x0F, _ => ⟨_, _, rfl, rfl, takesLength_byte _⟩
  | 0x10, _ => ⟨_, _, rfl, rfl, takesLength_twoWords _⟩
  | 0x11, _ => ⟨_, _, rfl, rfl, takesLength_empty _⟩
  | 0x12, _ => ⟨_, _, rfl, rfl, takesLength_wordByte _⟩
  | 0x13, _ => ⟨_, _, rfl, rfl, takesLength_empty _⟩
  | 0x14, _ => ⟨_, _, rfl, rfl, takesLength_portParams⟩
  | 0x15, _ => ⟨_, _, rfl, rfl, takesLength_penParams⟩
  | 0x16, _ => ⟨_, _, rfl, rfl, takesLength_empty _⟩
  | 0x17, _ => ⟨_, _, rfl, rfl, takesLength_pickParams⟩
  | 0x18, _ => ⟨_, _, rfl, rfl, takesLength_byte _⟩
  | 0x19, _ => ⟨_, _, rfl, rfl, takesLength_empty _⟩
  | 0x1A, _ => ⟨_, _, rfl, rfl, takesLength_snapSet⟩
  | 0x1B, _ => ⟨_, _, rfl, rfl, takesLength_byte _⟩
  | 0x1C, _ => ⟨_, _, rfl, rfl, takesLength_word _⟩
  | 0x1D, _ => ⟨_, _, rfl, rfl, takesLength_byte _⟩
  | 0x1E, _ => ⟨_, _, rfl, rfl, takesLength_empty _⟩
  | 0x1F, _ => ⟨_, _, rfl, rfl, takesLength_empty _⟩
  | 0x20, _ => ⟨_, _, rfl, rfl, takesLength_byte _⟩
  | 0x21, _ => ⟨_, _, rfl, rfl, takesLength_empty _⟩
  | k + 0x22, h => absurd h (by omega)

/-- A type beyond 22h has no reader. -/
theorem payloadReader_of_beyond {k : Nat} (h : 0x22 < k) : payloadReader k = none := by
  unfold payloadReader
  split
  rotate_left 34
  · rfl
  all_goals omega

/-- The three readings of a frame. -/
theorem decodeFrame_cases (f : Frame) :
    ((f.dir = true ∨ f.mtype.toNat = 0 ∨ 0x22 < f.mtype.toNat) ∧ decodeFrame f = .unknown f.mtype) ∨
      (f.dir = false ∧ 1 ≤ f.mtype.toNat ∧ f.mtype.toNat ≤ 0x22 ∧
        ((payloadLengths[f.mtype.toNat - 1]? ≠ some f.payload.length ∧ decodeFrame f = .badLength f.mtype) ∨
          (payloadLengths[f.mtype.toNat - 1]? = some f.payload.length ∧ ∃ c, decodeFrame f = .command c))) := by
  unfold decodeFrame
  cases hdir : f.dir with
  | true => exact .inl ⟨.inl rfl, rfl⟩
  | false =>
    simp only [Bool.false_eq_true, if_false, false_or, true_and]
    rcases Nat.eq_zero_or_pos f.mtype.toNat with h0 | hpos
    · exact .inl ⟨.inl h0, by rw [h0]; rfl⟩
    · by_cases hbeyond : 0x22 < f.mtype.toNat
      · exact .inl ⟨.inr hbeyond, by rw [payloadReader_of_beyond hbeyond]⟩
      · obtain ⟨read, len, hread, hlen, htakes⟩ := payloadReader_of_named (f.mtype.toNat - 1) (by omega)
        rw [Nat.sub_add_cancel hpos] at hread
        refine .inr ⟨hpos, Nat.not_lt.1 hbeyond, ?_⟩
        rw [hread, hlen]
        dsimp only
        cases hp : read f.payload with
        | none => exact .inl ⟨fun he => (htakes _).1 hp (Option.some.inj he).symm, rfl⟩
        | some c =>
          refine .inr ⟨congrArg some ?_, c, rfl⟩
          refine Classical.byContradiction fun hne => ?_
          exact nomatch hp.symm.trans ((htakes _).2 (fun he => hne he.symm))

theorem decodeFrame_unknown_iff (f : Frame) (m : BitVec 6) :
    decodeFrame f = .unknown m ↔ m = f.mtype ∧ (f.dir = true ∨ f.mtype.toNat = 0 ∨ 0x22 < f.mtype.toNat) := by
  rcases decodeFrame_cases f with ⟨hbar, hd⟩ | ⟨hdir, hlo, hhi, ⟨-, hd⟩ | ⟨-, c, hd⟩⟩
  · rw [hd]
    exact ⟨fun h => ⟨(Taken.unknown.inj h).symm, hbar⟩, fun h => congrArg Taken.unknown h.1.symm⟩
  · rw [hd, hdir]
    exact ⟨fun h => (nomatch h), fun h => absurd h.2 (by simp; omega)⟩
  · rw [hd, hdir]
    exact ⟨fun h => (nomatch h), fun h => absurd h.2 (by simp; omega)⟩

theorem decodeFrame_badLength_iff (f : Frame) (m : BitVec 6) :
    decodeFrame f = .badLength m ↔
      m = f.mtype ∧ f.dir = false ∧ 1 ≤ f.mtype.toNat ∧ f.mtype.toNat ≤ 0x22 ∧
        payloadLengths[f.mtype.toNat - 1]? ≠ some f.payload.length := by
  rcases decodeFrame_cases f with ⟨hbar, hd⟩ | ⟨hdir, hlo, hhi, ⟨hlen, hd⟩ | ⟨hlen, c, hd⟩⟩
  · rw [hd]
    refine ⟨fun h => (nomatch h), fun ⟨_, hdir, hlo, hhi, _⟩ => ?_⟩
    rcases hbar with h | h | h
    · exact absurd (hdir.symm.trans h) Bool.false_ne_true
    · omega
    · omega
  · rw [hd]
    exact ⟨fun h => ⟨(Taken.badLength.inj h).symm, hdir, hlo, hhi, hlen⟩, fun h => congrArg Taken.badLength h.1.symm⟩
  · rw [hd]
    exact ⟨fun h => (nomatch h), fun ⟨_, _, _, _, hne⟩ => absurd hlen hne⟩

/-! ## A complete frame (R172, R173) -/

section Complete

variable {u : State} {n : Link} {f : Frame}

theorem frameCompletes_of_full (h : Config.inboundSize ≤ (u.unit n).inbound.length) :
    u.frameCompletes n f = (u.setReceiver n .hunting).setFlag (.frameError n) := by
  unfold State.frameCompletes
  dsimp only
  refine if_neg (Nat.not_lt.2 ?_)
  rw [State.setReceiver, unit_setUnit_same]
  exact h

theorem takeNext_of_reply {r : Reply} (h : (u.unit n).slot = some r) : u.takeNext n = u := by
  unfold State.takeNext
  rw [h]

theorem takeNext_of_empty (h : (u.unit n).inbound = []) : u.takeNext n = u := by
  unfold State.takeNext
  rw [h]
  split
  next hn => exact nomatch hn
  next => rfl

theorem takeNext_of_frame {rest : List Frame} (hslot : (u.unit n).slot = none) (hin : (u.unit n).inbound = f :: rest) :
    u.takeNext n = (u.setUnit n { u.unit n with inbound := rest }).takeFrame n f := by
  unfold State.takeNext
  rw [hslot, hin]

/-- Behind a reply a frame waits in the buffer (R172, R173). -/
theorem frameCompletes_of_waiting (hroom : (u.unit n).inbound.length < Config.inboundSize) (hslot : (u.unit n).slot ≠ none) :
    u.frameCompletes n f = u.setUnit n { u.unit n with rx := .hunting, inbound := (u.unit n).inbound ++ [f] } := by
  obtain ⟨r, hr⟩ := Option.ne_none_iff_exists'.1 hslot
  unfold State.frameCompletes State.setReceiver
  dsimp only
  rw [unit_setUnit_same, if_pos hroom, setUnit_setUnit_same]
  exact takeNext_of_reply (r := r) (by rw [unit_setUnit_same]; exact hr)

theorem frameCompletes_of_unknown {m : BitVec 6} (h : u.Ready n) (hd : decodeFrame f = .unknown m) :
    u.frameCompletes n f = u.replied n { mtype := m, code := .unknown, values := [] } := by
  rw [frameCompletes_of_free h.slot h.inbound]
  unfold State.takeFrame
  rw [hd]
  rfl

theorem frameCompletes_of_badLength {m : BitVec 6} (h : u.Ready n) (hd : decodeFrame f = .badLength m) :
    u.frameCompletes n f = u.replied n { mtype := m, code := .range, values := [] } := by
  rw [frameCompletes_of_free h.slot h.inbound]
  unfold State.takeFrame
  rw [hd]
  rfl

end Complete

/-- Settles O41, by the reading of a frame and the state of the link it completes on. -/
theorem completeFrameWaitsOrIsAnswered : Obligations.CompleteFrameWaitsOrIsAnswered := by
  refine ⟨?_, ?_⟩
  · rintro f m lens rfl
    exact ⟨decodeFrame_unknown_iff f m, decodeFrame_badLength_iff f m⟩
  · rintro dt n f s u rfl
    have hcomplete (hf : f.payload.length ≤ Config.payloadLimit) :
        exec (.linkFrameComplete dt n f.dir f.mtype f.payload) s = .next ((s.advance dt).frameCompletes n f) :=
      congrArg Host.Outcome.next (if_pos hf)
    refine ⟨fun hlong => congrArg Host.Outcome.next (if_neg (Nat.not_le.2 hlong)), fun hf => ?_, fun hempty => ?_,
      fun hready hbar => ?_⟩
    · rw [hcomplete hf]
      exact ⟨fun hfull => congrArg _ (frameCompletes_of_full hfull),
        fun hroom hslot => congrArg _ (frameCompletes_of_waiting hroom hslot),
        fun hready => ⟨fun m hd => congrArg _ (frameCompletes_of_unknown hready hd),
          fun m hd => congrArg _ (frameCompletes_of_badLength hready hd)⟩⟩
    · exact congrArg Host.Outcome.next (if_pos (Nat.zero_le _)).symm
    · exact congrArg Host.Outcome.next (frameCompletes_of_unknown hready
        ((decodeFrame_unknown_iff { dir := f.dir, mtype := f.mtype, payload := [] } _).2 ⟨rfl, hbar⟩))

end Sys2Proof.Machine
end

section
/-! PROOFS. Failed frames, the gap timer and the end of a transmission (R170, R171, R173, R174; O42, O43). -/

namespace Sys2Proof.Machine

variable {s t u : State}

/-! ## A failed frame (R171) -/

/-- A failed frame before its REJECT: the receiver hunts and the flag is set. -/
def State.failed (s : State) (n : Link) : State := (s.setReceiver n .hunting).setFlag (.frameError n)

theorem failFrame_of_reply {n : Link} (reason : FailReason) (h : ((s.failed n).unit n).slot ≠ none) :
    s.failFrame n reason = s.failed n := if_neg (fun hn => h (Option.isNone_iff_eq_none.1 hn))

theorem failFrame_of_empty {n : Link} (reason : FailReason) (h : ((s.failed n).unit n).slot = none) :
    s.failFrame n reason = (s.failed n).placeReply n (rejectReply reason) := if_pos (Option.isNone_iff_eq_none.2 h)

theorem failed_rx (s : State) (n : Link) : ((s.failed n).unit n).rx = .hunting :=
  (((setFlag_posted _ _).unit n).rx).trans (congrArg LinkUnit.rx (unit_setUnit_same s n _))

theorem unit_placeReply_same (s : State) (n : Link) (r : Reply) :
    (s.placeReply n r).unit n = ({ s.unit n with slot := some r } : LinkUnit).kick := unit_setUnit_same s n _

theorem placeReply_rx (s : State) (n : Link) (r : Reply) : ((s.placeReply n r).unit n).rx = (s.unit n).rx := by
  rw [unit_placeReply_same, LinkUnit.kick_rx]

theorem failFrame_rx (s : State) (n : Link) (reason : FailReason) : ((s.failFrame n reason).unit n).rx = .hunting := by
  by_cases h : ((s.failed n).unit n).slot = none
  · rw [failFrame_of_empty reason h, placeReply_rx, failed_rx]
  · rw [failFrame_of_reply reason h, failed_rx]

theorem failFrame_flag (s : State) (n : Link) (reason : FailReason) :
    flagSet (s.failFrame n reason).flags (.frameError n) = true := by
  have hset : flagSet (s.failed n).flags (.frameError n) = true := setFlag_sets _ _
  by_cases h : ((s.failed n).unit n).slot = none
  · rw [failFrame_of_empty reason h, placeReply_flags, hset]
  · rw [failFrame_of_reply reason h, hset]

theorem unit_failFrame_ne {n m : Link} (h : n ≠ m) (s : State) (reason : FailReason) :
    ((s.failFrame n reason).unit m).rx = (s.unit m).rx := by
  have hother : ((s.failed n).unit m).rx = (s.unit m).rx :=
    (((setFlag_posted _ _).unit m).rx).trans (congrArg LinkUnit.rx (unit_setUnit_ne h s _))
  by_cases hslot : ((s.failed n).unit n).slot = none
  · rw [failFrame_of_empty reason hslot]
    exact (congrArg LinkUnit.rx (unit_setUnit_ne h _ _)).trans hother
  · rw [failFrame_of_reply reason hslot, hother]

/-! ## The receivers and the flags while time passes -/

/-- Every timed event but the expiry of a link's own gap timer leaves its receiver. -/
theorem fire_rx {e : TimedEvent} {n : Link} (h : e ≠ .gap n) : ((s.fire e).unit n).rx = (s.unit n).rx := by
  have hkept := hears_keptByParts (fun m => (s.unit m).rx)
  cases e with
  | qualify => exact hkept.qualify (s := s) (fun _ => rfl) n
  | debounce => exact hkept.debounce (s := s) (fun _ => rfl) n
  | gap m => exact unit_failFrame_ne (fun heq => h (congrArg TimedEvent.gap heq)) s .short
  | absence => exact hkept.absenceExpires (s := s) (fun _ => rfl) _ _ n

theorem elapse_rx (s : State) (d : Nat) (n : Link) : ((s.elapse d).unit n).rx = (s.unit n).rx.age d := by
  cases n <;> rfl

theorem fire_flags (s : State) (e : TimedEvent) (f : ConditionFlag) (h : flagSet s.flags f = true) :
    flagSet (s.fire e).flags f = true := by
  cases e with
  | qualify =>
    obtain ⟨pen, stats, -, hcorr⟩ := qualify_correlated s
    exact hcorr.flags f h
  | debounce =>
    show flagSet s.debounce.flags f = true
    unfold State.debounce
    dsimp only
    split
    · exact (tipDown_resolved _).flags f h
    · exact (tipUp_resolved _).flags f h
    · exact h
    · exact h
  | gap n =>
    have hfailed : flagSet (s.failed n).flags f = true :=
      (setFlag_posted _ _).flags f ((congrArg (flagSet · f) (setUnit_flags s n _)).trans h)
    show flagSet (s.failFrame n .short).flags f = true
    by_cases hslot : ((s.failed n).unit n).slot = none
    · rw [failFrame_of_empty _ hslot, placeReply_flags, hfailed]
    · rw [failFrame_of_reply _ hslot, hfailed]
  | absence =>
    show flagSet (s.absenceExpires defaultEndOrder defaultDarkOrder).flags f = true
    unfold State.absenceExpires
    split
    · exact h
    · exact (enterDark_kept s _).flags f h
    · exact (enterDark_kept _ _).flags f ((frameEnds_kept _ _ _).flags f ((flushFifo_handed s).kept.flags f h))

/-! ## The gap timer (R170) -/

theorem due_gap_of_receiving {n : Link} {bytes : List Byte} {g : Nat} (h : (s.unit n).rx = .receiving bytes g) :
    s.due (.gap n) = some (Config.gapLimit - g) := by
  simp only [State.due, h]

/-- Within its gap timer's ticks a frame goes on. -/
theorem advanceBy_rx (fuel : Nat) {n : Link} {bytes : List Byte} {g d : Nat} (h : (s.unit n).rx = .receiving bytes g)
    (hd : d ≤ Config.gapLimit - g) : ((State.advanceBy fuel d s).unit n).rx = .receiving bytes (g + d) := by
  have helapse : ∀ d, ((s.elapse d).unit n).rx = .receiving bytes (g + d) := fun d => by
    rw [elapse_rx, h]
    rfl
  induction fuel generalizing s g d with
  | zero => exact helapse d
  | succ k ih =>
    unfold State.advanceBy
    split
    · exact helapse d
    next e m hm =>
      split
      next hlt =>
        have hne : e ≠ .gap n := by
          rintro rfl
          have := Option.some.inj ((nextOf_due hm).symm.trans (due_gap_of_receiving h))
          omega
        have hrx := (fire_rx (s := s.elapse m) hne).trans (helapse m)
        rw [ih hrx (by omega) (fun d => by rw [elapse_rx, hrx]; rfl), Nat.add_assoc, Nat.add_sub_cancel' (Nat.le_of_lt hlt)]
      next => exact helapse d

theorem advance_rx {n : Link} {bytes : List Byte} {g d : Nat} (h : (s.unit n).rx = .receiving bytes g)
    (hd : d ≤ Config.gapLimit - g) : ((s.advance d).unit n).rx = .receiving bytes (g + d) := by
  rcases Nat.eq_zero_or_pos d with rfl | hpos
  · exact h
  · rw [advance_of_pos s hpos]
    exact advanceBy_rx 5 h hd

/-- A frame of the link has failed and none has been begun since. -/
def State.FailedAt (n : Link) (s : State) : Prop := (s.unit n).rx = .hunting ∧ flagSet s.flags (.frameError n) = true

theorem FailedAt.fire {n : Link} (h : s.FailedAt n) (e : TimedEvent) : (s.fire e).FailedAt n := by
  by_cases hgap : e = .gap n
  · subst hgap
    exact ⟨failFrame_rx s n .short, failFrame_flag s n .short⟩
  · exact ⟨(fire_rx hgap).trans h.1, fire_flags s e _ h.2⟩

theorem FailedAt.advance {n : Link} (h : s.FailedAt n) (d : Nat) : (s.advance d).FailedAt n :=
  advance_keeps (P := State.FailedAt n) (fun t d ht => ⟨by rw [elapse_rx, ht.1]; rfl, ht.2⟩) (fun _ e ht => FailedAt.fire ht e) d h

/-- A frame whose gap timer has run out fails in the next tick. -/
theorem advance_one_failedAt {n : Link} {bytes : List Byte} (h : (s.unit n).rx = .receiving bytes Config.gapLimit) :
    (s.advance 1).FailedAt n := by
  induction hl : s.live using Nat.strongRecOn generalizing s with
  | _ k ih =>
    have hdue : s.due (.gap n) = some 0 := due_gap_of_receiving h
    cases hn : s.nextOf timedEvents with
    | none => exact absurd hn (nextOf_ne_none (mem_timedEvents _) hdue)
    | some c =>
      obtain ⟨e, m⟩ := c
      obtain rfl : m = 0 := Nat.le_zero.1 (nextOf_least hn (mem_timedEvents _) hdue)
      have hstep : s.advance 1 = ((s.elapse 0).fire e).advance 1 := by
        rw [advance_of_pos s Nat.one_pos, advanceBy_of_sooner hn Nat.one_pos, advance_of_pos _ Nat.one_pos]
      rw [hstep]
      by_cases hgap : e = .gap n
      · subst hgap
        exact FailedAt.advance ⟨failFrame_rx _ n .short, failFrame_flag _ n .short⟩ 1
      · refine ih _ (hl ▸ live_fire_elapse (nextOf_due hn)) ?_ rfl
        rw [fire_rx hgap, elapse_rx, h]
        rfl

/-- Settles O42: the flag, then the slot, and the gap timer's ticks. -/
theorem failedFrameIsRejected : Obligations.FailedFrameIsRejected := by
  refine ⟨?_, fun n s => ⟨fun h => ?_, fun bytes g h hg => ?_⟩⟩
  · rintro dt n reason s a rfl
    refine ⟨setFlag_sets _ _, fun h => congrArg Host.Outcome.next (failFrame_of_reply reason h), fun h => ?_⟩
    cases reason with
    | sync | length | check | short => exact congrArg Host.Outcome.next (failFrame_of_empty _ h)
  · simp only [exec, execGapTimerExpiry, ticksToShort, h, advance_zero]
  · have hticks : ticksToShort n s = 50001 - g := by simp only [ticksToShort, h]; rfl
    have hwait : 50001 - g = (50000 - g) + 1 := by omega
    have hstill := advance_rx (d := 50000 - g) h (Nat.le_refl _)
    rw [Nat.add_sub_cancel' hg] at hstill
    obtain ⟨hrx, hflag⟩ := advance_one_failedAt hstill
    rw [advance_add, ← hwait] at hrx hflag
    refine ⟨fun d hd => advance_rx h hd, s.advance (50001 - g), ?_, rfl, hrx, hflag⟩
    simp only [exec, execGapTimerExpiry, hticks]

/-! ## The end of a transmission (R174) -/

section Ends

variable {n : Link}

/-- The transmitter's choice at the end of its frame. -/
theorem transmissionEnds_of_kick {x : LinkUnit} (hsends : (s.unit n).tx ≠ none) (hkick : ({ s.unit n with tx := none } : LinkUnit).kick = x) :
    (s.transmissionEnds n none = (s.setUnit n x).takeNext n) ∧
      ∀ reason, s.transmissionEnds n (some reason) = ((s.setUnit n x).failFrame n reason).takeNext n := by
  have hif : ¬ (s.unit n).tx.isNone = true := fun h => hsends (Option.isNone_iff_eq_none.1 h)
  subst hkick
  exact ⟨if_neg hif, fun reason => if_neg hif⟩

/-- On a link that sends, a failed frame leaves a reply in the slot, so that no command is taken (R171, R173). -/
theorem takeNext_failFrame (hsends : (s.unit n).tx ≠ none) (reason : FailReason) :
    (s.failFrame n reason).takeNext n = s.failFrame n reason := by
  have hstill : ((s.failed n).unit n).tx ≠ none := by
    refine ((setFlag_posted _ _).unit n).begun ?_
    rw [State.setReceiver, unit_setUnit_same]
    exact hsends
  by_cases hslot : ((s.failed n).unit n).slot = none
  · refine takeNext_of_reply (r := rejectReply reason) ?_
    rw [failFrame_of_empty reason hslot, unit_placeReply_same]
    exact congrArg LinkUnit.slot (LinkUnit.kick_of_blocked (u := { (s.failed n).unit n with slot := some (rejectReply reason) }) (.inr hstill))
  · obtain ⟨r, hr⟩ := Option.ne_none_iff_exists'.1 hslot
    refine takeNext_of_reply (r := r) ?_
    rw [failFrame_of_reply reason hslot, hr]

end Ends

/-- Settles O43, by the transmitter's choice: the reply, the oldest notice, or nothing. -/
theorem transmissionEndBeginsTheNext : Obligations.TransmissionEndBeginsTheNext := by
  rintro dt n s u rfl
  refine ⟨fun h fail => congrArg Host.Outcome.next (if_pos (Option.isNone_iff_eq_none.2 h)), fun hsends hfree => ⟨?_, fun hslot hin => ⟨?_, ?_⟩⟩⟩
  · rintro r a hslot rfl
    obtain ⟨hends, hfails⟩ := transmissionEnds_of_kick hsends (LinkUnit.kick_of_reply (u := { (s.advance dt).unit n with tx := none }) hfree rfl hslot)
    refine ⟨fun hin => ?_, fun f rest hin => ?_, fun reason => ?_⟩
    · exact congrArg Host.Outcome.next (hends.trans (takeNext_of_empty (by rw [unit_setUnit_same]; exact hin)))
    · exact congrArg Host.Outcome.next
        (hends.trans (takeNext_of_frame (by rw [unit_setUnit_same]) (by rw [unit_setUnit_same]; exact hin)))
    · refine congrArg Host.Outcome.next ((hfails reason).trans (takeNext_failFrame ?_ reason))
      rw [unit_setUnit_same]
      exact Option.some_ne_none _
  · intro q rest hq
    obtain ⟨hends, -⟩ := transmissionEnds_of_kick hsends
      (LinkUnit.kick_of_notice (u := { (s.advance dt).unit n with tx := none }) hfree rfl hslot hq)
    exact congrArg Host.Outcome.next (hends.trans (takeNext_of_empty (by rw [unit_setUnit_same]; exact hin)))
  · intro hq
    obtain ⟨hends, -⟩ := transmissionEnds_of_kick hsends
      (LinkUnit.kick_of_nothing (u := { (s.advance dt).unit n with tx := none }) hslot hq)
    exact congrArg Host.Outcome.next (hends.trans (takeNext_of_empty (by rw [unit_setUnit_same]; exact hin)))

end Sys2Proof.Machine
end

section
/-! PROOFS. The walk of the filter list, the cross, the echo list, dwell, and the resets (R44, R46, R124 to R126, R140 to R143, R151, R152,
R157, R185, R186; O49, O56, O57, O58, O59). -/

namespace Sys2Proof.Machine

variable {s t : State}

/-! ## The walk (R124 to R126) -/

/-- Two words agree under a mask when they agree at its bits. -/
theorem masked_eq_zero_iff (a b mask : Word) :
    ((a ^^^ b) &&& mask == 0) = true ↔ ∀ i < 16, mask.getLsbD i = true → a.getLsbD i = b.getLsbD i := by
  rw [beq_iff_eq]
  constructor
  · intro h i hi hm
    have hbit := congrArg (BitVec.getLsbD · i) h
    rw [BitVec.getLsbD_and, BitVec.getLsbD_xor, hm, Bool.and_true] at hbit
    simpa using hbit
  · intro h
    refine BitVec.eq_of_getLsbD_eq fun i hi => ?_
    rw [BitVec.getLsbD_and, BitVec.getLsbD_xor]
    cases hm : mask.getLsbD i with
    | false => simp
    | true => simp [h i hi hm]

theorem matchesClass_iff (e : FilterEntry) (c : SegClass) :
    e.matchesClass c = true ↔ (c = .drawing ∧ e.matchDrawing = true) ∨ (c = .menu ∧ e.matchMenu = true) := by
  cases c <;> simp [FilterEntry.matchesClass]

/-- Settles O49, by the five conditions of a match and the branches of the walk. -/
theorem filterWalk : Obligations.FilterWalk := by
  refine ⟨fun e p => ?_, fun e rest p priority route => ⟨rfl, fun h => ?_, fun h => ⟨fun ha => ?_, fun q ha => ?_, fun r ha => ?_⟩⟩⟩
  · unfold FilterEntry.matchesCandidate
    simp only [Bool.and_eq_true, decide_eq_true_eq, masked_eq_zero_iff, matchesClass_iff, and_assoc]
  · rw [walk, h]
    rfl
  · rw [walk, h, ha]
    rfl
  · rw [walk, h, ha]
    rfl
  · rw [walk, h, ha]
    rfl

/-! ## The cross (R151, R152, R157) -/

theorem moveAxis_none (slew coord sum : Nat) : moveAxis slew coord sum 0 = coord := if_pos rfl

theorem moveAxis_some (slew coord sum : Nat) {count : Nat} (h : 0 < count) :
    moveAxis slew coord sum count =
      clampNat 0 4095
        (if slew ≠ 0 ∧ coord + slew < roundHalfUp sum count then coord + slew
        else if slew ≠ 0 ∧ roundHalfUp sum count + slew < coord then coord - slew
        else roundHalfUp sum count) := if_neg (Nat.pos_iff_ne_zero.1 h)

theorem clampNat_of_le {hi v : Nat} (h : v ≤ hi) : clampNat 0 hi v = v := by
  unfold clampNat
  rw [if_neg (Nat.not_lt_zero v), if_neg (Nat.not_lt.2 h)]

theorem setCross_of_same {c : Cross} (h : c.state = s.cross.state) : s.setCross c = { s with cross := c } := if_pos h

theorem setCross_of_change {c : Cross} (h : c.state ≠ s.cross.state) :
    s.setCross c = State.post { s with cross := c } .both (.cross c.state c.x c.y s.port.lastSeq) := if_neg h

/-- Settles O57, by the axis and the cases of the update. -/
theorem crossFollowsItsPoints : Obligations.CrossFollowsItsPoints := by
  refine ⟨?_, fun slew coord sum count target hcoord => ⟨?_, ?_⟩, ?_⟩
  · rintro s t rfl
    exact ⟨setCross_of_same, setCross_of_change⟩
  · rintro rfl
    exact moveAxis_none slew coord sum
  · intro hcount htarget hle
    have hround : roundHalfUp sum count = target := htarget.symm
    rw [moveAxis_some slew coord sum hcount, hround]
    refine ⟨fun h => ?_, fun hs hlt => ?_, fun hs hlt => ?_⟩
    · rw [if_neg (by omega), if_neg (by omega), clampNat_of_le hle]
    · rw [if_pos ⟨hs, hlt⟩, clampNat_of_le (by omega)]
    · rw [if_neg (by omega), if_pos ⟨hs, hlt⟩, clampNat_of_le (by omega)]
  · rintro c e rfl
    unfold Cross.update
    refine ⟨fun h => if_pos h, fun h hpoints => ?_, fun hh hv => ⟨fun h => ?_, fun h => ?_⟩⟩
    · rw [if_neg h, if_pos hpoints]
      rfl
    · rw [if_neg (by rw [h]; decide), if_neg (by omega), if_pos h, hh, hv, moveAxis_none, moveAxis_none]
      rfl
    · rw [if_neg (by rw [h]; decide), if_neg (by omega), if_neg (by rw [h]; decide), hh, hv, moveAxis_none, moveAxis_none]
      rfl

/-! ## The echo list (R44, R46) -/

theorem bne_eq_decide (seg : Nat) : (fun e : Echo => e.seg != seg) = fun e => decide (e.seg ≠ seg) := by
  funext e
  by_cases h : e.seg = seg <;> simp [h]

theorem addEcho_of_length {length : Nat} (seg : Nat) (list : List Echo) (h : length ≠ 0) :
    addEcho length seg list =
      (if (list.filter (fun e => e.seg ≠ seg)).length < 4 then list.filter (fun e => e.seg ≠ seg)
        else (list.filter (fun e => e.seg ≠ seg)).tail) ++ [{ seg := seg, count := length }] := by
  unfold addEcho
  rw [if_neg h, bne_eq_decide]
  rfl

/-- The echoes counted down are those of count 2 or more, each one lower. -/
theorem countedDown_eq (list : List Echo) :
    (list.map (fun e : Echo => { e with count := e.count - 1 })).filter (fun e => e.count != 0) =
      (list.filter (fun e => 2 ≤ e.count)).map (fun e => { e with count := e.count - 1 }) := by
  rw [List.filter_map]
  congr 1
  refine List.filter_congr fun e _ => ?_
  rw [Bool.eq_iff_iff]
  simp only [Function.comp_apply, bne_iff_ne, decide_eq_true_eq]
  omega

/-- Settles O58. -/
theorem echoesAreAddedAndCountedDown : Obligations.EchoesAreAddedAndCountedDown := by
  refine ⟨fun length seg list => ⟨fun h => if_pos h, fun h hroom => ?_, fun h hfull => ?_⟩, fun s => ?_⟩
  · rw [addEcho_of_length seg list h, if_pos hroom]
  · rw [addEcho_of_length seg list h, if_neg (Nat.not_lt.2 hfull)]
  · unfold State.echoStep
    rw [countedDown_eq]

/-! ## Dwell (R140 to R143) -/

theorem addCandidateToSums_of_split {c : Candidate} {before after : List FrameSum} {e : FrameSum} (gap : Bool)
    (hcls : c.cls = .menu) (he : e.seg = c.key.seg) (hb : ∀ f ∈ before, f.seg ≠ c.key.seg) :
    addCandidateToSums gap (before ++ e :: after) c = before ++ e.add c gap :: after := by
  have hany : (before ++ e :: after).any (fun e => e.seg = c.key.seg) = true :=
    List.any_eq_true.2 ⟨e, List.mem_append_right _ List.mem_cons_self, decide_eq_true he⟩
  unfold addCandidateToSums
  rw [if_neg (fun hne => hne hcls), if_pos hany, addToSum_of_split c gap before e after he hb]

theorem addCandidateToSums_of_new {c : Candidate} {sums : List FrameSum} (gap : Bool) (hcls : c.cls = .menu)
    (h : ∀ f ∈ sums, f.seg ≠ c.key.seg) :
    addCandidateToSums gap sums c =
      if sums.length < Config.frameSumsSize then sums ++ [FrameSum.create c gap] else sums := by
  have hany : ¬ sums.any (fun e => e.seg = c.key.seg) = true := fun ha => by
    obtain ⟨f, hf, hseg⟩ := List.any_eq_true.1 ha
    exact h f hf (of_decide_eq_true hseg)
  unfold addCandidateToSums
  rw [if_neg (fun hne => hne hcls), if_neg hany]

theorem heaviest_ne_none {l : List FrameSum} (h : l ≠ []) : heaviest l ≠ none := by
  cases l with
  | nil => exact absurd rfl h
  | cons e rest =>
    unfold heaviest
    split
    · exact Option.some_ne_none e
    · split <;> exact Option.some_ne_none _

/-- The heaviest entry is one of the list, and none is heavier, nor as heavy with a lower number (R141). -/
theorem heaviest_eq_some {l : List FrameSum} {e : FrameSum} (h : heaviest l = some e) :
    e ∈ l ∧ ∀ f ∈ l, f.weight < e.weight ∨ (f.weight = e.weight ∧ e.seg ≤ f.seg) := by
  induction l generalizing e with
  | nil => exact nomatch h
  | cons a rest ih =>
    unfold heaviest at h
    split at h
    next hnone =>
      cases Option.some.inj h
      cases rest with
      | nil => exact ⟨List.mem_cons_self, fun f hf => by cases List.mem_singleton.1 hf; exact .inr ⟨rfl, (Nat.le_refl _)⟩⟩
      | cons b more => exact absurd hnone (heaviest_ne_none (List.cons_ne_nil b more))
    next f hf =>
      obtain ⟨hmem, hmost⟩ := ih hf
      split at h
      next hbefore =>
        cases Option.some.inj h
        refine ⟨List.mem_cons_self, fun g hg => ?_⟩
        rcases List.mem_cons.1 hg with rfl | hg
        · exact .inr ⟨rfl, (Nat.le_refl _)⟩
        · have := hmost g hg
          omega
      next hbefore =>
        cases Option.some.inj h
        refine ⟨List.mem_cons_of_mem _ hmem, fun g hg => ?_⟩
        rcases List.mem_cons.1 hg with rfl | hg
        · omega
        · exact hmost g hg

theorem dwellItem_of_idle (h : s.res.attempt = .idle) : s.dwellItem = heaviest s.menu.sums := if_pos h

theorem idle_of_dwellItem {e : FrameSum} (h : s.dwellItem = some e) : s.res.attempt = .idle := by
  refine Classical.byContradiction fun hn => ?_
  exact nomatch (if_neg hn : s.dwellItem = none).symm.trans h

/-- The menu state that follows the pen to an item. -/
theorem follow_some (m : Menu) (k : Nat) :
    m.follow (some k) =
      { m with
        latched := if m.latched = some k then some k else none
        leading := some k
        dwellCount := if m.leading = some k then min (m.dwellCount + 1) 60 else 1 } := by
  have hcount : satAdd 60 m.dwellCount 1 = min (m.dwellCount + 1) 60 := (satAdd_eq_min _ _ _).trans (Nat.min_comm _ _)
  obtain ⟨next, current, sums, leading, dwellCount, latched, dw⟩ := m
  dsimp only at hcount
  unfold Menu.follow
  dsimp only
  by_cases hl : latched = some k
  · subst hl
    rw [if_pos rfl, if_pos rfl]
    by_cases hk : leading = some k
    · subst hk
      rw [if_pos rfl, if_pos rfl, hcount]
    · rw [if_neg hk, if_neg hk]
  · rw [if_neg hl, if_neg hl]
    dsimp only
    by_cases hk : leading = some k
    · subst hk
      rw [if_pos rfl, if_pos rfl, hcount]
    · rw [if_neg hk, if_neg hk]

theorem follow_none (m : Menu) : m.follow none = { m with latched := none, leading := none, dwellCount := 0 } := by
  unfold Menu.follow
  dsimp only
  split
  next h => rw [← h]
  next => rfl

/-- What a menu item's action leaves of the attempt, the counters and the directory (R139). -/
structure Acted (s t : State) : Prop where
  number : t.res.number = s.res.number
  attempt : t.res.attempt = s.res.attempt
  stats : t.stats = s.stats
  dir : t.dir = s.dir

theorem Posted.acted (h : Posted s t) : Acted s t := ⟨by rw [h.res], by rw [h.res], h.stats, h.dir⟩

theorem stackOp_acted (s : State) (op : StackOp) : Acted s (s.stackOp op) where
  number := by rw [(stackOp_posted s op).res]
  attempt := by rw [(stackOp_posted s op).res]
  stats := (stackOp_posted s op).stats
  dir := (stackOp_posted s op).dir

theorem setMode_acted (s : State) (m : PickMode) (owner : LinkSet) : Acted s (s.setMode m owner) := by
  have hpost := post_posted { s with res := { s.res with mode := m, modeOwner := owner } } .both (.mode m owner)
  exact ⟨(congrArg Resolver.number hpost.res).trans rfl, (congrArg Resolver.attempt hpost.res).trans rfl, hpost.stats, hpost.dir⟩

theorem runMenuAction_acted (s : State) (seg : Nat) : Acted s (s.runMenuAction seg) := by
  unfold State.runMenuAction
  split
  · exact ⟨rfl, rfl, rfl, rfl⟩
  · split
    · exact ⟨rfl, rfl, rfl, rfl⟩
    · split
      · exact ⟨rfl, rfl, rfl, rfl⟩
      · exact stackOp_acted s _
      · exact stackOp_acted s _
      · exact stackOp_acted s _
      · exact setMode_acted s _ _

/-- What a MENU outcome leaves of the attempt, and what it does to the counters and the echo list. -/
theorem menuOutcome_leaves (s : State) (seg : Nat) (route : LinkSet) (x : PickNotice) :
    (s.menuOutcome seg route x).res.number = s.res.number ∧ (s.menuOutcome seg route x).res.attempt = s.res.attempt ∧
      (s.menuOutcome seg route x).stats = s.stats.count .picks ∧
        (s.menuOutcome seg route x).dir.echoes = addEcho s.dir.echoLength seg s.dir.echoes := by
  have hafter : ∀ a : State, Acted s a →
      (State.runMenuAction (State.echo (a.count .picks) seg) seg).res.number = s.res.number ∧
        (State.runMenuAction (State.echo (a.count .picks) seg) seg).res.attempt = s.res.attempt ∧
          (State.runMenuAction (State.echo (a.count .picks) seg) seg).stats = s.stats.count .picks ∧
            (State.runMenuAction (State.echo (a.count .picks) seg) seg).dir.echoes =
              addEcho s.dir.echoLength seg s.dir.echoes := fun a h => by
    obtain ⟨hnumber, hattempt, hstats, hdir⟩ := runMenuAction_acted (State.echo (a.count .picks) seg) seg
    refine ⟨hnumber.trans h.number, hattempt.trans h.attempt, hstats.trans (congrArg (Stats.count · .picks) h.stats), ?_⟩
    rw [hdir]
    show addEcho a.dir.echoLength seg a.dir.echoes = _
    rw [h.dir]
  by_cases hn : menuNotifies s seg = true
  · rw [menuOutcome_of_told route x hn]
    exact hafter _ (post_posted s route _).acted
  · rw [menuOutcome_of_withheld route x hn]
    exact hafter s ⟨rfl, rfl, rfl, rfl⟩

theorem menuDwell_of_none (h : s.dwellItem = none) : menuDwell s = { s with menu := s.menu.follow none } := by
  unfold menuDwell
  dsimp only
  rw [h]
  rfl

theorem menuDwell_of_waiting {e : FrameSum} {m : Menu} (h : s.dwellItem = some e) (hm : s.menu.follow (some e.seg) = m)
    (hwait : ¬ (m.dw ≠ 0 ∧ m.dw ≤ m.dwellCount ∧ m.latched ≠ some e.seg)) : menuDwell s = { s with menu := m } := by
  subst hm
  unfold menuDwell
  dsimp only
  rw [h]
  exact if_neg hwait

theorem menuDwell_of_choice {e : FrameSum} {m : Menu} (h : s.dwellItem = some e) (hm : s.menu.follow (some e.seg) = m)
    (hchoice : m.dw ≠ 0 ∧ m.dw ≤ m.dwellCount ∧ m.latched ≠ some e.seg) :
    menuDwell s =
      { State.dwellChoice { s with menu := m } e with
        menu := { (State.dwellChoice { s with menu := m } e).menu with latched := some e.seg, dwellCount := 0 } } := by
  subst hm
  unfold menuDwell
  dsimp only
  rw [h]
  exact if_pos hchoice

/-- Settles O59: the frame sums, the item followed, and the choice as a MENU outcome. -/
theorem dwellChoosesTheHeldItem : Obligations.DwellChoosesTheHeldItem := by
  refine ⟨fun gap sums c => ⟨fun h => if_pos h, fun hcls => ⟨?_, fun hnew => ⟨fun hroom => ?_, fun hfull => ?_⟩⟩⟩,
    fun s h => ?_, ?_, fun s hidle hsums => ?_, fun s e h => ?_⟩
  · rintro before e after rfl he hb
    rw [addCandidateToSums_of_split gap hcls he hb]
    unfold FrameSum.add
    rw [satAdd_eq_min]
  · rw [addCandidateToSums_of_new gap hcls hnew]
    exact if_pos hroom
  · rw [addCandidateToSums_of_new gap hcls hnew]
    exact if_neg (Nat.not_lt.2 hfull)
  · rw [menuDwell_of_none h, follow_none]
  · rintro s e count m h rfl - hm
    have hfollow : s.menu.follow (some e.seg) = m := (follow_some _ _).trans hm.symm
    have hdw : m.dw = s.menu.dw := by rw [hm]
    have hcount : m.dwellCount = if s.menu.leading = some e.seg then min (s.menu.dwellCount + 1) 60 else 1 := by rw [hm]
    have hlatched : m.latched = some e.seg ↔ s.menu.latched = some e.seg := by
      rw [hm]
      dsimp only
      split
      next hl => exact ⟨fun _ => hl, fun _ => rfl⟩
      next hl => exact ⟨fun hn => (nomatch hn), fun hs => absurd hs hl⟩
    refine ⟨fun hwait => menuDwell_of_waiting h hfollow ?_, fun hon hlong hfree => ?_⟩
    · rw [hdw, hcount, ne_eq m.latched, hlatched]
      rintro ⟨hon, hlong, hfree⟩
      rcases hwait with hoff | hshort | hheld
      · exact hon hoff
      · omega
      · exact hfree hheld
    · have hchoice : m.dw ≠ 0 ∧ m.dw ≤ m.dwellCount ∧ m.latched ≠ some e.seg :=
        ⟨hdw ▸ hon, by rw [hdw, hcount]; exact hlong, fun hl => hfree (hlatched.1 hl)⟩
      have hdwell := menuDwell_of_choice h hfollow hchoice
      obtain ⟨hnumber, hattempt, hstats, hechoes⟩ := menuOutcome_leaves
        (State.count { s with menu := m, res := { s.res with number := s.res.number + 1 } } .attempts) e.seg e.route
        (dwellNotice (State.count { s with menu := m, res := { s.res with number := s.res.number + 1 } } .attempts)
          (s.res.number + 1) m.dwellCount e)
      rw [hdwell]
      refine ⟨?_, rfl, rfl, hnumber, hattempt, hstats, hechoes⟩
      rintro b u x rfl rfl rfl
      rw [← hcount]
      rfl
  · rw [dwellItem_of_idle hidle]
    exact heaviest_ne_none hsums
  · have hidle := idle_of_dwellItem h
    rw [dwellItem_of_idle hidle] at h
    exact ⟨hidle, heaviest_eq_some h⟩

/-! ## Resets (R185, R186) -/

/-- PART_RESET taken at once resets the part, and no reply is placed (R185). -/
theorem linkCommand_partReset {u : State} {n : Link} (h : u.Ready n) : u.linkCommand n .partReset = u.resetKept (.partReset n) := by
  have hfree : ((u.unit n).slot.isNone && (u.unit n).inbound.isEmpty) = true := by rw [h.slot, h.inbound]; rfl
  refine (if_pos hfree).trans ?_
  simp [State.carryOut, commandWork, State.resetKept, State.afterReset, State.setBusy, State.setReceiver]

/-- Settles O56: each of the three is the one reset, with its cause, its line rate and the pen lines it samples. -/
theorem resetsTakeTheResetState : Obligations.ResetsTakeTheResetState := by
  rintro rate cause tip line enable waiting l z rfl rfl
  refine ⟨?_, ?_⟩
  · rintro s rfl rfl
    rfl
  · rintro dt s u rfl rfl rfl rfl rfl rfl
    refine ⟨?_, ?_⟩
    · rintro rfl
      rfl
    · rintro n hready rfl
      exact congrArg Host.Outcome.next (linkCommand_partReset hready)

end Sys2Proof.Machine
end

section
/-! PROOFS. Commands on a ready link (R173, R174): what the completion of a command leaves, the queries (O45) and the change
commands (O46). -/

namespace Sys2Proof.Machine

variable {s u v : State} {n : Link} {r : Reply}

/-! ## A command being carried out and its completion (R173, R174) -/

/-- The state on which a ready link's command does its work: the receiver hunts, and the link is marked. -/
def State.taken (u : State) (n : Link) : State :=
  { u with links := (u.setUnit n { u.unit n with rx := .hunting, busy := true }).links }

/-- The state after a command's work with the mark gone and the reply placed. -/
def State.finished (v : State) (n : Link) (r : Reply) : State :=
  { v with links := ((v.setBusy n false).placeReply n r).links }

theorem finished_eq (v : State) (n : Link) (r : Reply) : v.finished n r = (v.setBusy n false).placeReply n r := by
  cases n <;> rfl

theorem setUnit_links (s : State) (n : Link) (x : LinkUnit) : s.setUnit n x = { s with links := (s.setUnit n x).links } := by
  cases n <;> rfl

theorem taken_eq_setUnit (u : State) (n : Link) : u.taken n = u.setUnit n { u.unit n with rx := .hunting, busy := true } :=
  (setUnit_links u n _).symm

theorem taken_eq (u : State) (n : Link) : (u.setReceiver n .hunting).setBusy n true = u.taken n := by
  rw [taken_eq_setUnit]
  simp [State.setReceiver, State.setBusy]

theorem unit_taken_same (u : State) (n : Link) : (u.taken n).unit n = { u.unit n with rx := .hunting, busy := true } := by
  rw [taken_eq_setUnit, unit_setUnit_same]

theorem unit_taken_other (u : State) (n : Link) : (u.taken n).unit (otherLink n) = u.unit (otherLink n) := by
  rw [taken_eq_setUnit, unit_setUnit_otherLink]

theorem carriedOut_eq (u : State) (n : Link) (work : State → State) (r : Reply) :
    u.carriedOut n work r = (work (u.taken n)).finished n r := by
  unfold State.carriedOut
  rw [taken_eq, finished_eq]

theorem linkCommand_of_work {c : LinkCmd} {work : State → State} (h : u.Ready n)
    (hw : commandWork n c (u.taken n) = (work (u.taken n), some r)) : u.linkCommand n c = (work (u.taken n)).finished n r := by
  rw [← carriedOut_eq]
  rw [← taken_eq] at hw
  exact linkCommand_carriedOut h hw

theorem finished_same {y : State} (h : v = y) (r : Reply) : v.finished n r = { y with links := (v.finished n r).links } := by
  subst h
  rfl

/-- A unit in whose slot a reply is placed keeps its queue (R174). -/
theorem kick_queue_of_reply {x : LinkUnit} {r : Reply} (h : x.slot = some r) : x.kick.queue = x.queue := by
  unfold LinkUnit.kick
  split
  · rfl
  · rw [h]

theorem unit_finished_same (v : State) (n : Link) (r : Reply) :
    (v.finished n r).unit n = ({ v.unit n with busy := false, slot := some r } : LinkUnit).kick := by
  rw [finished_eq, unit_placeReply_same, unit_setBusy_same]

theorem unit_finished_other (v : State) (n : Link) (r : Reply) : (v.finished n r).unit (otherLink n) = v.unit (otherLink n) := by
  rw [finished_eq]
  unfold State.placeReply State.setBusy
  rw [unit_setUnit_otherLink, unit_setUnit_otherLink]

theorem queue_finished (v : State) (n : Link) (r : Reply) : ((v.finished n r).unit n).queue = (v.unit n).queue := by
  rw [unit_finished_same, kick_queue_of_reply rfl]

theorem lossMark_finished (v : State) (n : Link) (r : Reply) : ((v.finished n r).unit n).lossMark = (v.unit n).lossMark := by
  rw [unit_finished_same, LinkUnit.kick_lossMark]

theorem mask_finished (v : State) (n : Link) (r : Reply) : ((v.finished n r).unit n).mask = (v.unit n).mask := by
  rw [unit_finished_same, LinkUnit.kick_mask]

/-- What a command's work leaves of the unit of its link, whose transmitter begins nothing meanwhile. -/
structure Waited (u v : State) (n : Link) : Prop where
  rx : (v.unit n).rx = .hunting
  inbound : (v.unit n).inbound = []
  tx : (v.unit n).tx = (u.unit n).tx

theorem waited_of_offered (h : u.Ready n) (ho : ((u.taken n).unit n).Offered (v.unit n)) : Waited u v n := by
  have hsends := ho.sending
  have hrx := ho.rx
  have hin := ho.inbound
  rw [unit_taken_same] at hsends hrx hin
  exact ⟨hrx, hin.trans h.inbound, (hsends (.inl rfl)).1⟩

/-- The reply then goes to the link (R173, R174). -/
theorem answered_finished (h : Waited u v n) (r : Reply) : answered u (v.finished n r) n r := by
  unfold answered
  rw [unit_finished_same, LinkUnit.kick_rx, LinkUnit.kick_inbound]
  refine ⟨h.rx, h.inbound, fun htx => ?_, fun htx => ?_⟩
  · rw [LinkUnit.kick_of_reply (u := { v.unit n with busy := false, slot := some r }) rfl (h.tx.trans htx) rfl]
    exact ⟨rfl, rfl⟩
  · rw [LinkUnit.kick_of_blocked (u := { v.unit n with busy := false, slot := some r }) (.inr (fun hn => htx (h.tx.symm.trans hn)))]
    exact ⟨h.tx, rfl⟩

/-! ## The queries (R35, R131, R181) -/

theorem countUp_eq : countUp = fun v => min 65535 (v + 1) := by
  funext v
  exact satAdd_eq_min _ _ _

theorem stats_count_eq (st : Stats) (c : Counter) {up : Nat → Nat} (hup : up = countUp) :
    st.count c =
      (match c with
        | .frames => { st with frames := up st.frames }
        | .vectors => { st with vectors := up st.vectors }
        | .intakeDrops => { st with intakeDrops := up st.intakeDrops }
        | .hits => { st with hits := up st.hits }
        | .narrow => { st with narrow := up st.narrow }
        | .dead => { st with dead := up st.dead }
        | .unmatched => { st with unmatched := up st.unmatched }
        | .discarded => { st with discarded := up st.discarded }
        | .attempts => { st with attempts := up st.attempts }
        | .picks => { st with picks := up st.picks }
        | .ambiguous => { st with ambiguous := up st.ambiguous }
        | .missed => { st with missed := up st.missed }
        | .lost => { st with lost := up st.lost }) := by
  subst hup
  cases c <;> rfl

theorem statsReadWork_unitBlind (clear : Byte) : UnitBlind n (statsReadWork clear) := fun s x => by
  unfold statsReadWork
  split
  · cases n <;> rfl
  · cases n <;> rfl

theorem filterReadWork_setUnit (index : Byte) (s : State) (x : LinkUnit) :
    (filterReadWork index (s.setUnit n x)).2 = (filterReadWork index s).2 := by
  simp only [filterReadWork, setUnit_filt]

theorem segQueryWork_fst (seg : Word) (s : State) : (segQueryWork seg s).1 = s := by
  unfold segQueryWork
  split <;> rfl

theorem segQueryWork_setUnit (seg : Word) (s : State) (x : LinkUnit) :
    (segQueryWork seg (s.setUnit n x)).2 = (segQueryWork seg s).2 := by
  simp only [segQueryWork, State.rangeRefusal, State.entry, setUnit_dir]
  split <;> rfl

theorem entryBytes_eq (entry : Option Entry) :
    entryBytes entry =
      (match entry with
        | none => [0, 0, 0, 0, 0, 0, 0, 0, 0, 0xFF, 0, 0, 0]
        | some e =>
          [1#8, byteOf e.owner.code, byteOf e.cls.code] ++ bytes16 e.tag
            ++ [byteOf ((if e.visible then 1 else 0) + (if e.detectable then 2 else 0)
                  + (if e.granularity = .element then 8 else 0)),
                byteOf e.intensity.val, byteOf e.highlight.code, byteOf e.priority.val]
            ++ (match e.binding with
                | none => [0xFF#8, 0#8, 0#8, 0#8]
                | some b => [byteOf b.page.code, byteOf b.action.code, byteOf b.action.target, boolByte b.notify])) := by
  cases entry with
  | none => rfl
  | some e =>
    obtain ⟨owner, cls, tag, visible, detectable, intensity, highlight, priority, granularity, binding⟩ := e
    cases binding <;> rfl

theorem exec_segQuery (dt : Nat) (seg : Word) (h : (s.advance dt).Ready n) :
    exec (.segQuery dt n seg) s = .next ((s.advance dt).replied n (segQueryWork seg (s.advance dt)).2) :=
  congrArg Host.Outcome.next (linkCommand_of_report (c := .segQuery seg) (report := fun s => (segQueryWork seg s).2) h
    (segQueryWork_setUnit seg) (fun s => congrArg (Prod.mk · _) (segQueryWork_fst seg s)))

/-- Settles O45: the counters and the codes case by case, and each command as the reply of its report. -/
theorem queryAndStatisticsReport : Obligations.QueryAndStatisticsReport := by
  refine ⟨fun v s c => ⟨congrFun countUp_eq v, rfl⟩, fun st c up hup => stats_count_eq st c (hup.trans countUp_eq.symm),
    fun a c h b m f => ⟨rfl, ?_, ?_, ?_, ?_, ?_⟩, rfl, ?_⟩
  · cases c <;> rfl
  · cases h <;> rfl
  · cases b <;> rfl
  · cases m with
    | mode k => cases k <;> rfl
    | _ => rfl
  · cases f <;> rfl
  · rintro dt n s u rfl hready
    refine ⟨fun index => ?_, fun seg owner pending => ⟨fun hbad => ?_, ?_⟩, fun clear => ?_⟩
    · refine congrArg Host.Outcome.next ((linkCommand_of_report (c := .filterRead index)
        (report := fun s => (filterReadWork index s).2) hready (filterReadWork_setUnit index) (fun _ => rfl)).trans ?_)
      unfold filterReadWork
      cases (s.advance dt).filt.entries[index.toNat]? <;> rfl
    · rw [exec_segQuery dt seg hready]
      unfold segQueryWork
      rw [if_pos (show badSeg seg = true from decide_eq_true hbad)]
      rfl
    · rintro hseg rfl rfl
      rw [exec_segQuery dt seg hready]
      unfold segQueryWork
      rw [if_neg (show ¬ badSeg seg = true from fun hb => absurd (of_decide_eq_true hb) (Nat.not_le.2 hseg))]
      exact congrArg (fun fields => Host.Outcome.next ((s.advance dt).replied n
        { mtype := 0x06#6, code := .ok, values := fields ++ [boolByte ((s.advance dt).dir.changePending seg.toNat)] }))
        (entryBytes_eq _)
    · refine congrArg Host.Outcome.next (linkCommand_of_unitBlind (c := .statsRead clear) hready (statsReadWork_unitBlind clear)
        (fun _ => rfl) ?_)
      unfold statsReadWork yes
      split <;> rfl

/-! ## The change commands (R27, R36, R41) -/

/-- A change command by what check 1 makes of it. -/
def changeTaken (n : Link) (c : LinkCmd) (s : State) : State × Reply :=
  match changeOf s.dir.projected c with
  | none => s.rangeRefusal c.mtype
  | some (op, clamped) => s.takeChange n op clamped

theorem changeTaken_of_none {c : LinkCmd} (h : changeOf s.dir.projected c = none) : changeTaken n c s = s.rangeRefusal c.mtype := by
  unfold changeTaken
  rw [h]

theorem changeTaken_of_some {c : LinkCmd} {op : ChangeOp} {clamped : Bool} (h : changeOf s.dir.projected c = some (op, clamped)) :
    changeTaken n c s = s.takeChange n op clamped := by
  unfold changeTaken
  rw [h]

theorem badSeg_iff (seg : Word) : badSeg seg = true ↔ ¬ seg.toNat < 1023 := by
  unfold badSeg
  rw [decide_eq_true_eq]
  exact Nat.not_lt.symm

theorem segDefineWork_eq (a : SegDefineArgs) (s : State) : segDefineWork n a s = changeTaken n (.segDefine a) s := by
  unfold segDefineWork
  cases hc : classOf a.cls with
  | none => exact (changeTaken_of_none (c := .segDefine a) (by simp only [changeOf, hc])).symm
  | some cls =>
    cases hh : highlightOf a.highlight with
    | none => exact (changeTaken_of_none (c := .segDefine a) (by simp only [changeOf, hc, hh])).symm
    | some highlight =>
      dsimp only
      by_cases hseg : a.seg.toNat < 1023
      · rw [if_neg (fun hb => (badSeg_iff _).1 hb hseg)]
        refine (changeTaken_of_some (c := .segDefine a) ?_).symm
        have hclamped : decide (3 < a.intensity.toNat ∨ cls = .drawing ∧ 7 < a.priority.toNat) =
            (decide (3 < a.intensity.toNat) || (cls == .drawing && decide (7 < a.priority.toNat))) := by
          rw [Bool.eq_iff_iff]
          simp
        simp only [changeOf, hc, hh, if_pos hseg, hclamped]
        rfl
      · rw [if_pos ((badSeg_iff _).2 hseg)]
        exact (changeTaken_of_none (c := .segDefine a) (by simp only [changeOf, hc, hh, if_neg hseg])).symm

theorem segShareWork_eq (seg : Word) (s : State) : segShareWork n seg s = changeTaken n (.segShare seg) s := by
  unfold segShareWork
  by_cases hseg : seg.toNat < 1023
  · rw [if_neg (fun hb => (badSeg_iff _).1 hb hseg)]
    exact (changeTaken_of_some (c := .segShare seg) (if_pos hseg)).symm
  · rw [if_pos ((badSeg_iff _).2 hseg)]
    exact (changeTaken_of_none (c := .segShare seg) (if_neg hseg)).symm

theorem segReleaseWork_eq (seg : Word) (s : State) : segReleaseWork n seg s = changeTaken n (.segRelease seg) s := by
  unfold segReleaseWork
  by_cases hseg : seg.toNat < 1023
  · rw [if_neg (fun hb => (badSeg_iff _).1 hb hseg)]
    exact (changeTaken_of_some (c := .segRelease seg) (if_pos hseg)).symm
  · rw [if_pos ((badSeg_iff _).2 hseg)]
    exact (changeTaken_of_none (c := .segRelease seg) (if_neg hseg)).symm

/-- Check 1 of SEG_MENU: the segment, and then the binding. -/
theorem changeOf_segMenu (d : Dir) (a : SegMenuArgs) :
    changeOf d (.segMenu a) =
      if a.seg.toNat < 1023 then (bindingOf a).map (fun b => (.menu a.seg.toNat b, false)) else none := by
  unfold changeOf bindingOf
  dsimp only
  split
  · split
    · rfl
    · cases boundPageOf a.page with
      | none => rfl
      | some page => cases menuActionOf a.action a.target <;> rfl
  · rfl

theorem segMenuWork_eq (a : SegMenuArgs) (s : State) : segMenuWork n a s = changeTaken n (.segMenu a) s := by
  have hof := changeOf_segMenu s.dir.projected a
  unfold segMenuWork
  cases hb : bindingOf a with
  | none =>
    refine (changeTaken_of_none (c := .segMenu a) (hof.trans ?_)).symm
    rw [hb]
    exact ite_self none
  | some b =>
    rw [hb] at hof
    dsimp only
    by_cases hseg : a.seg.toNat < 1023
    · rw [if_neg (fun h => (badSeg_iff _).1 h hseg)]
      exact (changeTaken_of_some (c := .segMenu a) (hof.trans (if_pos hseg))).symm
    · rw [if_pos ((badSeg_iff _).2 hseg)]
      exact (changeTaken_of_none (c := .segMenu a) (hof.trans (if_neg hseg))).symm

theorem clampNat_eq {lo hi : Nat} (h : lo ≤ hi) (v : Nat) : clampNat lo hi v = max lo (min v hi) := by
  unfold clampNat
  split
  · omega
  · split
    · omega
    · omega

theorem viewSetWork_eq (a : ViewSetArgs) (s : State) : viewSetWork n a s = changeTaken n (.viewSet a) s := by
  unfold viewSetWork
  cases ho : orientationOf a.orientation with
  | none => exact (changeTaken_of_none (c := .viewSet a) (by simp only [changeOf, ho])).symm
  | some o =>
    refine (changeTaken_of_some (c := .viewSet a) ?_).symm
    have hclamped : decide (a.sc.toNat = 0 ∨ 16777215 < a.sc.toNat) = outside 1 16777215 a.sc.toNat := by
      unfold outside
      rw [Bool.eq_iff_iff]
      simp
    simp only [changeOf, ho, hclamped, clampNat_eq (show 1 ≤ 16777215 by decide)]

/-- The priority a SEG_SET stages, by the class its segment has in the projected directory (R28). -/
theorem heldPriority_projected (entry : Option Entry) (p : Fin 8) :
    heldPriority (match entry with | some e => e.cls | none => .drawing) p =
      if (match entry with | some e => e.cls != .drawing | none => false) = true then 0 else p := by
  unfold heldPriority
  cases entry with
  | none => rfl
  | some e => cases h : e.cls <;> simp [h]

theorem segSetWork_eq (a : SegSetArgs) (s : State) : segSetWork n a s = changeTaken n (.segSet a) s := by
  have hcheck : (badSeg a.seg || a.present.getLsbD 7 || (a.present.getLsbD 4 && (highlightOf a.highlight).isNone)) = true ↔
      ¬ (a.seg.toNat < 1023 ∧ a.present.getLsbD 7 = false ∧ (a.present.getLsbD 4 = true → highlightOf a.highlight ≠ none)) := by
    rw [Bool.or_eq_true, Bool.or_eq_true, Bool.and_eq_true, badSeg_iff, Option.isNone_iff_eq_none]
    cases a.present.getLsbD 7 with
    | true => simp
    | false =>
      simp only [Bool.false_eq_true, or_false, true_and, Classical.not_and_iff_not_or_not, Classical.not_imp, Classical.not_not]
  unfold segSetWork
  dsimp only
  by_cases hok : a.seg.toNat < 1023 ∧ a.present.getLsbD 7 = false ∧ (a.present.getLsbD 4 = true → highlightOf a.highlight ≠ none)
  · rw [if_neg (fun h => hcheck.1 h hok)]
    refine (changeTaken_of_some (c := .segSet a) ?_).symm
    simp only [changeOf, if_pos hok]
    cases hfind : Dir.find s.dir.projected a.seg.toNat with
    | none => simp [named, heldPriority, granularityOf]
    | some e => cases hcls : e.cls <;> simp [named, heldPriority, granularityOf, hcls]
  · rw [if_pos (hcheck.2 hok)]
    exact (changeTaken_of_none (c := .segSet a) (by simp only [changeOf, if_neg hok])).symm

theorem commandWork_change {c : LinkCmd} (h : isChange c = true) (s : State) :
    commandWork n c s = ((changeTaken n c s).1, some (changeTaken n c s).2) := by
  cases c with
  | segDefine a => exact congrArg (fun w : State × Reply => (w.1, some w.2)) (segDefineWork_eq a s)
  | segSet a => exact congrArg (fun w : State × Reply => (w.1, some w.2)) (segSetWork_eq a s)
  | segShare seg => exact congrArg (fun w : State × Reply => (w.1, some w.2)) (segShareWork_eq seg s)
  | segRelease seg => exact congrArg (fun w : State × Reply => (w.1, some w.2)) (segReleaseWork_eq seg s)
  | segMenu a => exact congrArg (fun w : State × Reply => (w.1, some w.2)) (segMenuWork_eq a s)
  | viewSet a => exact congrArg (fun w : State × Reply => (w.1, some w.2)) (viewSetWork_eq a s)
  | _ => exact absurd h Bool.false_ne_true

/-- A change is named as the command that carries it (R38, R193). -/
theorem changeOf_mtype {d : Dir} {c : LinkCmd} {op : ChangeOp} {clamped : Bool} (h : changeOf d c = some (op, clamped)) :
    op.mtype = c.mtype := by
  unfold changeOf at h
  split at h
  · split at h
    · split at h
      · cases h
        rfl
      · exact nomatch h
    · exact nomatch h
  · dsimp only at h
    split at h
    · cases h
      rfl
    · exact nomatch h
  · split at h
    · cases h
      rfl
    · exact nomatch h
  · split at h
    · cases h
      rfl
    · exact nomatch h
  · split at h
    · split at h
      · cases h
        rfl
      · split at h
        · cases h
          rfl
        · exact nomatch h
    · exact nomatch h
  · split at h
    · cases h
      rfl
    · exact nomatch h
  · exact nomatch h

/-! ## Taking a change (R27, R41) -/

theorem takeChange_of_refused {op : ChangeOp} {code : ReplyCode} (clamped : Bool) (h : op.refusal n s.dir.projected = some code) :
    s.takeChange n op clamped = (s, { mtype := op.mtype, code := code, values := [] }) := by
  unfold State.takeChange
  rw [h]

theorem takeChange_of_full {op : ChangeOp} (clamped : Bool) (h : op.refusal n s.dir.projected = none) (hm : s.port.mode ≠ .dark)
    (hfull : Config.changeListSize ≤ s.dir.changes.length) :
    s.takeChange n op clamped = (s, { mtype := op.mtype, code := .full, values := [] }) := by
  unfold State.takeChange
  rw [h]
  exact (if_neg hm).trans (if_pos hfull)

theorem takeChange_of_room {op : ChangeOp} (clamped : Bool) (h : op.refusal n s.dir.projected = none) (hm : s.port.mode ≠ .dark)
    (hroom : s.dir.changes.length < Config.changeListSize) :
    s.takeChange n op clamped =
      ({ s with dir := { s.dir with changes := s.dir.changes ++ [{ issuer := n, op := op }] } },
        { mtype := op.mtype, code := doneCode clamped, values := [s.frameNumber] }) := by
  unfold State.takeChange
  rw [h]
  exact (if_neg hm).trans (if_neg (Nat.not_le.2 hroom))

theorem takeChange_of_dark {op : ChangeOp} (clamped : Bool) (h : op.refusal n s.dir.projected = none) (hm : s.port.mode = .dark) :
    s.takeChange n op clamped =
      ((State.applyChange { s with dir := { s.dir with withdrawn := [] } } { issuer := n, op := op }).handWithdrawn false,
        { mtype := op.mtype, code := doneCode clamped, values := [s.frameNumber] }) := by
  unfold State.takeChange
  rw [h]
  exact if_pos hm

/-- A change applied at once while the port is DARK, with its withdrawn set handed on (R41). -/
def State.changeAtOnce (n : Link) (op : ChangeOp) (a : State) : State :=
  (State.applyChange { a with dir := { a.dir with withdrawn := [] } } { issuer := n, op := op }).handWithdrawn false

/-- What such a change leaves and what it does to the directory and the view. -/
structure ChangedAtOnce (n : Link) (op : ChangeOp) (a t : State) : Prop where
  coord : t.coord = (match op with | .view v => { a.coord with view := v } | _ => a.coord)
  entries : t.dir.entries = op.apply n a.dir.entries
  changes : t.dir.changes = a.dir.changes
  sweeps : t.dir.sweeps = a.dir.sweeps
  same : t = { a with dir := t.dir, coord := t.coord, res := t.res, menu := t.menu }

theorem changeAtOnce_changed (n : Link) (op : ChangeOp) (a : State) : ChangedAtOnce n op a (State.changeAtOnce n op a) where
  entries := applyChange_entries _ _
  changes := applyChange_changes _ _
  sweeps := by cases op <;> rfl
  coord := by cases op <;> rfl
  same := by cases op <;> rfl

section ChangeCommand

variable {dt : Nat} {c : LinkCmd}

/-- A change command with its work and its reply. -/
theorem exec_change {x : State} (h : (s.advance dt).Ready n) (hc : isChange c = true)
    (hw : changeTaken n c ((s.advance dt).taken n) = (x, r)) : exec (linkInstr dt n c) s = .next (x.finished n r) := by
  rw [exec_linkInstr]
  refine congrArg Host.Outcome.next (linkCommand_of_work (work := fun _ => x) h ?_)
  rw [commandWork_change hc, hw]

/-- A state whose units are those of the taken one is replied as the state it was taken from. -/
theorem finished_of_units {x : State} (h : u.Ready n) (hx : x.unit n = u.unit n) (r : Reply) :
    State.finished { x with links := (x.setUnit n { u.unit n with rx := .hunting, busy := true }).links } n r = x.replied n r := by
  have hclear := h.clearBusy_unit
  rw [← setUnit_links, finished_eq]
  unfold State.replied State.setReceiver State.setBusy
  rw [unit_setUnit_same, setUnit_setUnit_same, hclear, hx]

theorem taken_finished (h : u.Ready n) (r : Reply) : (u.taken n).finished n r = u.replied n r := finished_of_units h rfl r

theorem finished_dir {d : Directory} (h : u.Ready n) (r : Reply) :
    State.finished { u.taken n with dir := d } n r = State.replied { u with dir := d } n r := by
  have hunit : State.unit { u with dir := d } n = u.unit n := by cases n <;> rfl
  rw [← finished_of_units h hunit r]
  unfold State.taken
  cases n <;> rfl

end ChangeCommand

/-- Settles O46, by check 1 and the cases of the taking. -/
theorem changeCommandIsCheckedAndStaged : Obligations.ChangeCommandIsCheckedAndStaged := by
  rintro dt n c s u rfl hready hc
  refine ⟨fun hnone => ?_, ?_⟩
  · rw [exec_change hready hc (changeTaken_of_none hnone), taken_finished hready]
  · rintro op clamped done hsome rfl
    have htaken : changeTaken n c ((s.advance dt).taken n) = ((s.advance dt).taken n).takeChange n op clamped :=
      changeTaken_of_some hsome
    have hmtype := changeOf_mtype hsome
    refine ⟨fun code href => ?_, fun href => ⟨fun hm hfull => ?_, fun hm hroom => ?_, fun hm => ?_⟩⟩
    · rw [exec_change hready hc (htaken.trans (takeChange_of_refused clamped href)), taken_finished hready, hmtype]
    · rw [exec_change hready hc (htaken.trans (takeChange_of_full clamped href hm hfull)), taken_finished hready, hmtype]
    · rw [exec_change hready hc (htaken.trans (takeChange_of_room clamped href hm hroom)), ← hmtype]
      exact congrArg Host.Outcome.next (finished_dir hready _)
    · have hwork := exec_change hready hc (htaken.trans (takeChange_of_dark clamped href hm))
      rw [hmtype] at hwork
      obtain ⟨hcoord, hentries, hchanges, hsweeps, hsame⟩ := changeAtOnce_changed n op ((s.advance dt).taken n)
      have hunit (m : Link) : (State.changeAtOnce n op ((s.advance dt).taken n)).unit m = ((s.advance dt).taken n).unit m := by
        rw [hsame]
        cases m <;> rfl
      refine ⟨_, hwork, answered_finished (waited_of_offered hready ?_) _, (carriedOut_eq (s.advance dt) n (State.changeAtOnce n op) _).symm,
        ?_, ?_, ?_, ?_, ?_, ?_⟩
      · exact (hunit n).symm ▸ .refl _
      · exact hentries
      · exact hchanges
      · exact hsweeps
      · exact (unit_finished_other _ _ _).trans ((hunit _).trans (unit_taken_other _ _))
      · exact hcoord
      · exact finished_same hsame _

end Sys2Proof.Machine
end

section
/-! PROOFS. The checks of ownership and what a change and a sweep do to the directory (R21, R27 to R34, R37, R38, R43; O47). -/

namespace Sys2Proof.Machine

variable {s : State} {n : Link} {d : Dir} {seg : Nat}

/-! ## Owner sets (R22) -/

theorem diff_isEmpty_iff {o : LinkSet} (h : o.isEmpty = false) (n : Link) : (o.diff (.single n)).isEmpty = true ↔ o = .single n := by
  obtain ⟨a, b⟩ := o
  revert h
  cases n <;> cases a <;> cases b <;> decide

theorem both_diff_single (n : Link) : LinkSet.both.diff (.single n) = .single (otherLink n) := by
  cases n <;> rfl

theorem not_isEmpty_of_single (n : Link) : ¬ (LinkSet.single n).isEmpty = true := by
  rw [single_not_empty]
  exact Bool.false_ne_true

/-! ## Look-up after a sweep and after a release (R32, R43) -/

/-- The first number of a rising table does not come again. -/
theorem find_of_rising_head {k : Nat} {e : Entry} {rest : Dir} (h : Dir.rising ((k, e) :: rest)) : Dir.find rest k = none := by
  cases hf : Dir.find rest k with
  | none => rfl
  | some f => exact absurd ((rising_cons.1 h).1 _ (find_mem hf)) (Nat.lt_irrefl k)

/-- A sweep takes the link out of every owner set, and frees a segment that it alone owned (R43). -/
theorem find_sweep (n : Link) (hd : Dir.wf d = true) (seg : Nat) :
    Dir.find (Dir.sweep n d) seg =
      (Dir.find d seg).bind (fun e => if e.owner = .single n then none else some { e with owner := e.owner.diff (.single n) }) := by
  obtain ⟨hrising, howned⟩ := (wf_iff d).1 hd
  clear hd
  induction d with
  | nil => rfl
  | cons p rest ih =>
    obtain ⟨k, e⟩ := p
    have hempty := diff_isEmpty_iff (howned _ List.mem_cons_self).2 n
    have hrest := ih (rising_cons.1 hrising).2 (fun q hq => howned q (List.mem_cons_of_mem _ hq))
    unfold Dir.sweep
    dsimp only
    by_cases hseg : k = seg
    · subst hseg
      have hfind : Dir.find ((k, e) :: rest) k = some e := if_pos rfl
      rw [hfind, Option.bind_some]
      by_cases hall : e.owner = .single n
      · rw [if_pos (hempty.2 hall), if_pos hall, hrest, find_of_rising_head hrising]
        rfl
      · rw [if_neg (fun h => hall (hempty.1 h)), if_neg hall]
        exact if_pos rfl
    · have hfind : Dir.find ((k, e) :: rest) seg = Dir.find rest seg := if_neg hseg
      rw [hfind, ← hrest]
      split
      · rfl
      · exact if_neg hseg

theorem find_disown_ne {k : Nat} (h : k ≠ seg) (n : Link) (d : Dir) : Dir.find (Dir.disown seg n d) k = Dir.find d k := by
  unfold Dir.disown
  split
  · dsimp only
    split
    · rw [find_remove, if_neg h]
    · exact find_put_ne h _ _
  · rfl

/-- A release by the only owner frees the segment (R32). -/
theorem find_disown_of_single {e : Entry} (he : Dir.find d seg = some e) (ho : e.owner = .single n) :
    Dir.find (Dir.disown seg n d) seg = none := by
  have hempty := (diff_isEmpty_iff (single_not_empty n) n).2 rfl
  unfold Dir.disown
  rw [he]
  dsimp only
  rw [ho, if_pos hempty, find_remove, if_pos rfl]

theorem find_disown_of_both {e : Entry} (he : Dir.find d seg = some e) (ho : e.owner = .both) :
    Dir.find (Dir.disown seg n d) seg = some { e with owner := .single (otherLink n) } := by
  unfold Dir.disown
  rw [he]
  dsimp only
  rw [ho, both_diff_single, if_neg (not_isEmpty_of_single _), find_put_same]

/-- A change alters the segment it names alone. -/
theorem find_apply_other (n : Link) (d : Dir) (op : ChangeOp) {k : Nat} (h : op.seg ≠ some k) :
    Dir.find (op.apply n d) k = Dir.find d k := by
  have hne : ∀ seg, op.seg = some seg → k ≠ seg := fun seg hs hk => h (hk ▸ hs)
  cases op with
  | define seg v => exact find_put_ne (hne seg rfl) _ _
  | set seg v => exact (find_change seg k _ d).trans (if_neg (hne seg rfl))
  | share seg => exact (find_change seg k _ d).trans (if_neg (hne seg rfl))
  | release seg => exact find_disown_ne (hne seg rfl) n d
  | menu seg b => exact (find_change seg k _ d).trans (if_neg (hne seg rfl))
  | view v => rfl

theorem find_change_same {e : Entry} (f : Entry → Entry) (he : Dir.find d seg = some e) :
    Dir.find (Dir.change seg f d) seg = some (f e) := by
  rw [find_change, if_pos rfl, he]
  rfl

/-! ## What an applied change does to the directory (R21, R37, R39) -/

theorem filter_not_nil (list : List Echo) : list.filter (fun e => !List.contains ([] : List Nat) e.seg) = list :=
  List.filter_eq_self.2 fun _ _ => rfl

theorem addOnce_eq (seg : Nat) (list : List Nat) : addOnce seg list = if seg ∈ list then list else list ++ [seg] := by
  unfold addOnce
  by_cases h : seg ∈ list <;> simp [h]

theorem applyChange_define {c : Change} {v : DefineValues} (h : c.op = .define seg v) :
    s.applyChange c =
      { s with
        dir :=
          { s.dir with
            entries := c.op.apply c.issuer s.dir.entries
            withdrawn := if seg ∈ s.dir.withdrawn then s.dir.withdrawn else s.dir.withdrawn ++ [seg] } } := by
  unfold State.applyChange
  rw [h, ← addOnce_eq]
  simp only [Directory.take, ChangeOp.frees, ChangeOp.touches, filter_not_nil, List.foldl_cons, List.foldl_nil]

theorem applyChange_freeing {c : Change} (h : c.op = .release seg) (ho : ownerOf (Dir.find s.dir.entries seg) = .single c.issuer) :
    s.applyChange c =
      { s with
        dir :=
          { s.dir with
            entries := c.op.apply c.issuer s.dir.entries, echoes := s.dir.echoes.filter (fun e => e.seg ≠ seg)
            withdrawn := if seg ∈ s.dir.withdrawn then s.dir.withdrawn else s.dir.withdrawn ++ [seg] } } := by
  have hechoes : s.dir.echoes.filter (fun e => !List.contains [seg] e.seg) = s.dir.echoes.filter (fun e => e.seg ≠ seg) :=
    List.filter_congr fun e _ => by by_cases he : e.seg = seg <;> simp [he]
  unfold State.applyChange
  rw [h, ← addOnce_eq, ← hechoes]
  simp only [Directory.take, ChangeOp.frees, ChangeOp.touches, if_pos ho, List.foldl_cons, List.foldl_nil]

/-- A change that makes no segment FREE or DEFINED and is no VIEW_SET changes the entries alone. -/
theorem applyChange_of_untouched {c : Change} (hfrees : c.op.frees c.issuer s.dir.entries = [])
    (htouches : c.op.touches c.issuer s.dir.entries = []) (hview : c.op.isView = false) :
    s.applyChange c = { s with dir := { s.dir with entries := c.op.apply c.issuer s.dir.entries } } := by
  unfold State.applyChange Directory.take
  dsimp only
  rw [hfrees, htouches]
  rw [filter_not_nil]
  split
  next h => rw [h] at hview; exact absurd hview.symm Bool.false_ne_true
  next => rfl

theorem applyChange_plain {c : Change}
    (h : (∃ v, c.op = .set seg v) ∨ c.op = .share seg ∨ (∃ b, c.op = .menu seg b) ∨
      (c.op = .release seg ∧ ownerOf (Dir.find s.dir.entries seg) ≠ .single c.issuer)) :
    s.applyChange c = { s with dir := { s.dir with entries := c.op.apply c.issuer s.dir.entries } } := by
  rcases h with ⟨v, h⟩ | h | ⟨b, h⟩ | ⟨h, ho⟩
  · exact applyChange_of_untouched (by rw [h]; rfl) (by rw [h]; rfl) (by rw [h]; rfl)
  · exact applyChange_of_untouched (by rw [h]; rfl) (by rw [h]; rfl) (by rw [h]; rfl)
  · exact applyChange_of_untouched (by rw [h]; rfl) (by rw [h]; rfl) (by rw [h]; rfl)
  · exact applyChange_of_untouched (by rw [h]; exact if_neg ho) (by rw [h]; exact if_neg ho) (by rw [h]; rfl)

theorem applyChange_viewSet {c : Change} {v : View} (h : c.op = .view v) :
    s.applyChange c = { s with coord := { s.coord with view := v } } := by
  unfold State.applyChange
  rw [h]
  simp only [Directory.take, ChangeOp.frees, ChangeOp.touches, ChangeOp.apply, filter_not_nil, List.foldl_nil]

theorem applySweep_eq (n : Link) (hd : Dir.wf s.dir.entries = true) :
    s.applySweep n =
      { s with
        dir :=
          { s.dir with
            entries := Dir.sweep n s.dir.entries
            echoes := s.dir.echoes.filter (fun e => ownerOf (Dir.find s.dir.entries e.seg) ≠ .single n)
            withdrawn := (s.applySweep n).dir.withdrawn } } := by
  have hechoes : s.dir.echoes.filter (fun e => ownerOf (Dir.find s.dir.entries e.seg) ≠ .single n) =
      s.dir.echoes.filter (fun e => !(Dir.freedBySweep n s.dir.entries).contains e.seg) := by
    refine List.filter_congr fun e _ => ?_
    have hmem := mem_freedBySweep n s.dir.entries hd e.seg
    rw [Bool.eq_iff_iff, decide_eq_true_eq, Bool.not_eq_true', ← Bool.not_eq_true, List.contains_iff_mem, hmem]
  rw [hechoes]
  rfl

theorem mem_applySweep_withdrawn (n : Link) (hd : Dir.wf s.dir.entries = true) (k : Nat) :
    k ∈ (s.applySweep n).dir.withdrawn ↔ k ∈ s.dir.withdrawn ∨ ownerOf (Dir.find s.dir.entries k) = .single n :=
  (mem_foldl_addOnce _ _ k).trans (or_congr_right (mem_freedBySweep n s.dir.entries hd k))

theorem refusal_define_of_entry {e : Entry} (v : DefineValues) (he : Dir.find d seg = some e) :
    (ChangeOp.define seg v).refusal n d = if e.owner.has n then some .state else some .denied := by
  unfold ChangeOp.refusal
  dsimp only
  rw [he]

/-- Settles O47: the checks by the entry found, and each change's effect by its lemma. -/
theorem ownershipDecidesChanges : Obligations.OwnershipDecidesChanges := by
  refine ⟨?_, fun n d seg hd => ?_, fun n d op k _ h => find_apply_other n d op h, fun n d seg _ => ⟨fun v => find_put_same _ _ _,
    fun e he => ⟨fun v => find_change_same _ he, find_change_same _ he, find_disown_of_single he, find_disown_of_both he,
      fun b => find_change_same _ he⟩, fun v => rfl⟩, ?_, fun s n hd => ⟨applySweep_eq n hd, mem_applySweep_withdrawn n hd⟩,
    fun s c => ⟨fun h => ?_, fun reason h => ?_⟩, ?_⟩
  · rintro n d seg owner rfl
    refine ⟨fun v => ?_, fun v => rfl, rfl, rfl, fun b e he => ?_, fun b he => ?_, fun v => rfl⟩
    · cases hf : Dir.find d seg with
      | none => simp only [ChangeOp.refusal, hf, if_true]
      | some e => exact (refusal_define_of_entry v hf).trans (if_neg (Option.some_ne_none e)).symm
    · unfold ChangeOp.refusal
      dsimp only
      rw [he]
      show (if (!e.owner.has n) = true then _ else _) = if e.owner.has n = true then _ else _
      cases e.owner.has n <;> rfl
    · unfold ChangeOp.refusal
      dsimp only
      rw [he]
  · rw [find_sweep n hd]
    cases Dir.find d seg <;> rfl
  · rintro s c d rfl
    exact ⟨fun seg v => applyChange_define, fun seg => applyChange_freeing, fun seg => applyChange_plain,
      fun v => applyChange_viewSet⟩
  · unfold State.applyListed
    rw [h]
  · unfold State.applyListed
    rw [h]
  · rintro s a b c rfl rfl rfl
    rfl

end Sys2Proof.Machine
end

section
/-! PROOFS. Commands that tell the links (R134 to R139, R153, R154, R69, R95, R107; O50, O52, O53): what a notice posted by a command's work
leaves at its end, the page commands, the cross commands, and the commands of mode, cancel and resume. -/

namespace Sys2Proof.Machine

variable {s u v a : State} {n : Link} {r : Reply} {x : Notice}

/-! ## A command's work and its notices (R173 to R175) -/

/-- A work with its reply, as the command's work is written (R173). -/
def repliedWith (w : State × Reply) : State × Option Reply := (w.1, some w.2)

theorem linkCommand_of_pair {c : LinkCmd} {w : State × Reply} (h : u.Ready n) (hw : commandWork n c (u.taken n) = (w.1, some w.2)) :
    u.linkCommand n c = w.1.finished n w.2 := linkCommand_of_work (work := fun _ => w.1) h hw

theorem unit_of_links {s t : State} (h : t.links = s.links) (m : Link) : t.unit m = s.unit m := by
  cases m <;> simp only [State.unit, h]

/-- A work that touches no link's unit leaves at its end the reply alone. -/
theorem finished_of_links (h : u.Ready n) (hv : v.links = (u.taken n).links) (r : Reply) :
    v.finished n r = State.replied { v with links := u.links } n r := by
  have hready : State.Ready { v with links := u.links } n := ⟨h.slot, h.inbound, h.notBusy⟩
  have htaken : State.taken { v with links := u.links } n = v := by
    have hlinks : (State.taken { v with links := u.links } n).links = v.links := by rw [hv]; cases n <;> rfl
    exact congrArg (fun l => { v with links := l }) hlinks
  rw [← taken_finished hready, htaken]

theorem finished_posted (h : Posted a v) (r : Reply) :
    v.finished n r = { a with links := (v.finished n r).links, flags := (v.finished n r).flags } := finished_same h.same r

theorem answered_of_offered (h : u.Ready n) (ha : a.links = (u.taken n).links) (ho : (a.unit n).Offered (v.unit n)) (r : Reply) :
    answered u (v.finished n r) n r := by
  rw [unit_of_links ha n] at ho
  exact answered_finished (waited_of_offered h ho) r

theorem post_single_of_room (h : (s.unit n).queue.length < Config.noticeQueueSize) :
    s.post (.single n) x = s.setUnit n ((s.unit n).offer x).1 := by
  have hoffer : s.offer n x = (s.setUnit n ((s.unit n).offer x).1, false) := by
    unfold State.offer
    rw [offer_kept h]
  unfold State.post
  rw [postRounds_eq]
  cases n with
  | link0 =>
    rw [show s.offerIf (LinkSet.single .link0).l0 .link0 x = s.offer .link0 x from rfl, hoffer]
    rfl
  | link1 =>
    rw [show (s.offerIf (LinkSet.single .link1).l0 .link0 x).1.offerIf (LinkSet.single .link1).l1 .link1 x
      = s.offer .link1 x from rfl, hoffer]
    rfl

/-- A notice for the other link alone (R175). -/
theorem told_finished (ha : a.links = (u.taken n).links) (r : Reply) :
    told u ((a.post (.single (otherLink n)) x).finished n r) (otherLink n) x := by
  intro hroom
  have hunit : a.unit (otherLink n) = u.unit (otherLink n) := (unit_of_links ha _).trans (unit_taken_other u n)
  rw [unit_finished_other, post_single_of_room (by rw [hunit]; exact hroom), unit_setUnit_same, hunit]

theorem unit_post_both (h : s.Roomy) (m : Link) : (s.post .both x).unit m = ((s.unit m).offer x).1 := by
  rw [post_of_roomy .both h]
  cases m <;> rfl

/-- A notice offered to a link whose transmitter waits stands last in its queue, if the mask holds its class. -/
theorem queue_offer_of_busy {w : LinkUnit} (hb : w.busy = true) (hq : w.queue.length < Config.noticeQueueSize) :
    (w.offer x).1.queue = w.queue ++ (if enables w.mask x then [{ notice := x, lossBefore := w.lossMark }] else []) := by
  cases he : enables w.mask x with
  | false =>
    rw [offer_of_masked he]
    exact (List.append_nil _).symm
  | true =>
    rw [offer_of_room he hq]
    exact congrArg LinkUnit.queue (LinkUnit.kick_of_blocked (u :=
      { w with queue := w.queue ++ [{ notice := x, lossBefore := w.lossMark }], lossMark := false }) (.inl hb))

theorem roomy_taken (h : u.Roomy) : (u.taken n).Roomy := fun m => by
  rw [taken_eq_setUnit, unit_setUnit]
  split
  · exact h n
  · exact h m

/-- A notice for both links (R175). -/
theorem toldBoth_finished (ha : a.links = (u.taken n).links) (r : Reply) :
    toldBoth u ((a.post .both x).finished n r) n x := by
  intro hroomy
  have hroom : a.Roomy := fun m => by rw [unit_of_links ha]; exact roomy_taken hroomy m
  refine ⟨?_, ?_⟩
  · rw [unit_finished_other, unit_post_both hroom, unit_of_links ha, unit_taken_other]
  · rw [queue_finished, unit_post_both hroom, unit_of_links ha, unit_taken_same]
    exact queue_offer_of_busy rfl (hroomy n)

/-! ## The page stacks (R134 to R138) -/

theorem stackOp_of_lit (op : StackOp) (h : s.port.mode ≠ .dark) :
    s.stackOp op = { s with menu := { s.menu with next := op.apply s.menu.next } } := if_neg h

theorem stackOp_of_dark (op : StackOp) (h : s.port.mode = .dark) :
    s.stackOp op = State.copyStack { s with menu := { s.menu with next := op.apply s.menu.next } } := if_pos h

theorem copyStack_of_same (h : topPage s.menu.next = s.currentPage) :
    s.copyStack = { s with menu := { s.menu with current := s.menu.next } } := if_pos h

theorem copyStack_of_turned (h : topPage s.menu.next ≠ s.currentPage) :
    s.copyStack =
      State.post { s with menu := { s.menu with current := s.menu.next } } .both
        (.page (topPage s.menu.next) s.menu.next.length s.port.lastSeq) := if_neg h

theorem pagePushWork_of_none {page : Byte} (s : State) (h : pageOf page = none) :
    pagePushWork page s = (s, { mtype := 0x0D, code := .range, values := [] }) := by
  unfold pagePushWork
  rw [h]

theorem pagePushWork_of_page {page : Byte} {p : Fin 15} (s : State) (h : pageOf page = some p) :
    pagePushWork page s = (s.stackOp (.push p), { mtype := 0x0D, code := .ok, values := (s.stackOp (.push p)).pageValues }) := by
  unfold pagePushWork
  rw [h]

/-- A push loses the bottom page of a stack of eight (R135). -/
theorem push_apply (p : Fin 15) (stack : List (Fin 15)) :
    (StackOp.push p).apply stack = p :: (if stack.length < 8 then stack else stack.take 7) := by
  show p :: stack.take 7 = _
  split
  next h => rw [List.take_of_length_le (by omega)]
  next => rfl

/-- A page command is a stack operation on the taken state. -/
theorem linkCommand_page {c : LinkCmd} {op : StackOp} {mtype : BitVec 6} {stack : List (Fin 15)} (h : u.Ready n)
    (hstack : op.apply u.menu.next = stack)
    (hw : ∀ s, commandWork n c s = (s.stackOp op, some { mtype := mtype, code := .ok, values := (s.stackOp op).pageValues })) :
    u.linkCommand n c =
      ((u.taken n).stackOp op).finished n { mtype := mtype, code := .ok, values := [byteOf (topPage stack).val, byteOf stack.length] } := by
  have hvalues : ((u.taken n).stackOp op).pageValues = [byteOf (topPage stack).val, byteOf stack.length] := by
    unfold State.pageValues
    rw [stackOp_menu, ← hstack]
    rfl
  rw [← hvalues]
  exact linkCommand_of_pair (w := ((u.taken n).stackOp op, _)) h (hw _)

/-- The three page commands. -/
theorem exec_page {dt : Nat} {c : Instr} {mtype : BitVec 6} {stack : List (Fin 15)} (h : (s.advance dt).Ready n)
    (hc : (∃ (page : Byte) (p : Fin 15), page.toNat = p.val ∧ c = .pagePush dt n page ∧ mtype = 0x0D#6 ∧
          stack = p :: (if (s.advance dt).menu.next.length < 8 then (s.advance dt).menu.next else (s.advance dt).menu.next.take 7)) ∨
        (c = .pageBack dt n ∧ mtype = 0x0E#6 ∧ stack = (s.advance dt).menu.next.tail) ∨
          (c = .pageHome dt n ∧ mtype = 0x0F#6 ∧ stack = [])) :
    ∃ op : StackOp, op.apply (s.advance dt).menu.next = stack ∧
      exec c s =
        .next ((((s.advance dt).taken n).stackOp op).finished n
          { mtype := mtype, code := .ok, values := [byteOf (topPage stack).val, byteOf stack.length] }) := by
  rcases hc with ⟨page, p, hp, rfl, rfl, rfl⟩ | ⟨rfl, rfl, rfl⟩ | ⟨rfl, rfl, rfl⟩
  · refine ⟨.push p, push_apply p _, congrArg Host.Outcome.next (linkCommand_page (c := .pagePush page) h (push_apply p _) fun s => ?_)⟩
    have hpage : pageOf page = some p := by
      unfold pageOf
      rw [dif_pos (by omega)]
      exact congrArg some (Fin.ext hp)
    exact congrArg repliedWith (pagePushWork_of_page s hpage)
  · exact ⟨.back, rfl, congrArg Host.Outcome.next (linkCommand_page (c := .pageBack) h rfl fun _ => rfl)⟩
  · exact ⟨.home, rfl, congrArg Host.Outcome.next (linkCommand_page (c := .pageHome) h rfl fun _ => rfl)⟩

/-- Settles O50, by the stack operation and the copy with its notice. -/
theorem pageCommandsTurnPages : Obligations.PageCommandsTurnPages := by
  refine ⟨?_, ?_, ?_⟩
  · rintro s t op stack hop - rfl
    have happly : op.apply s.menu.next = stack := by
      rcases hop with ⟨p, rfl, rfl⟩ | ⟨rfl, rfl⟩ | ⟨rfl, rfl⟩
      · exact push_apply p _
      · rfl
      · rfl
    subst happly
    exact ⟨stackOp_of_lit op, stackOp_of_dark op⟩
  · rintro s t z rfl hsame hturned
    have hcopy : s.copyStack = z := by
      by_cases h : topPage s.menu.next = s.currentPage
      · rw [copyStack_of_same h, hsame h]
      · rw [copyStack_of_turned h, hturned h]
    refine ⟨hcopy, ?_, ?_⟩
    · rw [← hcopy]
      rfl
    · rw [← hcopy]
      rfl
  · rintro dt n s u rfl hready
    refine ⟨fun page hpage => ?_, ?_⟩
    · have hnone : pageOf page = none := dif_neg (Nat.not_lt.2 hpage)
      exact congrArg Host.Outcome.next ((linkCommand_of_pair (c := .pagePush page) (w := (_, _)) hready
        (congrArg repliedWith (pagePushWork_of_none _ hnone))).trans (taken_finished hready _))
    · rintro c mtype stack r hc rfl
      obtain ⟨op, rfl, hexec⟩ := exec_page hready hc
      refine ⟨fun hm => ?_, fun hm => ?_⟩
      · rw [hexec, stackOp_of_lit (s := (s.advance dt).taken n) op hm]
        refine congrArg Host.Outcome.next (finished_of_links hready ?_ _)
        rfl
      · rw [stackOp_of_dark (s := (s.advance dt).taken n) op hm] at hexec
        have hposted := copyStack_posted { (s.advance dt).taken n with
          menu := { ((s.advance dt).taken n).menu with next := op.apply ((s.advance dt).taken n).menu.next } }
        refine ⟨fun hsame => ?_, _, hexec, ?_, ?_, fun hturned => ?_⟩
        · rw [hexec, copyStack_of_same hsame]
          refine congrArg Host.Outcome.next (finished_of_links hready ?_ _)
          rfl
        · refine answered_of_offered hready ?_ (hposted.unit n) _
          rfl
        · exact finished_posted hposted _
        · rw [copyStack_of_turned hturned]
          refine toldBoth_finished ?_ _
          rfl

/-! ## The codes of values carried out (11.3) -/

theorem outside_iff {lo hi : Nat} (v : Nat) : outside lo hi v = true ↔ ¬ v = clampNat lo hi v := by
  unfold outside clampNat
  rw [Bool.or_eq_true, decide_eq_true_eq, decide_eq_true_eq]
  split
  · omega
  · split
    · omega
    · omega

theorem doneCode_eq {clamped : Bool} {P : Prop} [Decidable P] (h : clamped = true ↔ ¬ P) :
    doneCode clamped = if P then .ok else .clamped := by
  unfold doneCode
  by_cases hp : P
  · rw [if_neg (fun hc => h.1 hc hp), if_pos hp]
  · rw [if_pos (h.2 hp), if_neg hp]

theorem clampNat_zero (hi v : Nat) : clampNat 0 hi v = min v hi := (clampNat_eq (Nat.zero_le hi) v).trans (Nat.zero_max _)

/-! ## The cross commands (R153, R154) -/

/-- A command that replaces the cross. -/
theorem exec_setCross {dt : Nat} {c : Instr} {cmd : LinkCmd} {cross : Cross} (h : (s.advance dt).Ready n)
    (hc : c = linkInstr dt n cmd)
    (hw : commandWork n cmd ((s.advance dt).taken n) = (((s.advance dt).taken n).setCross cross, some r)) :
    exec c s = .next ((((s.advance dt).taken n).setCross cross).finished n r) := by
  rw [hc, exec_linkInstr]
  exact congrArg Host.Outcome.next (linkCommand_of_pair (w := (_, _)) h hw)

/-- Settles O52: both commands replace the cross, and a change of its state is told. -/
theorem crossIsPlacedAndParked : Obligations.CrossIsPlacedAndParked := by
  rintro dt n s u rfl hready c cross r hc
  have hexec : exec c s = .next ((((s.advance dt).taken n).setCross cross).finished n r) := by
    rcases hc with ⟨x, y, cx, cy, rfl, rfl, rfl, rfl, rfl⟩ | ⟨rfl, rfl, rfl⟩
    · refine exec_setCross (cmd := .crossPlace x y) hready rfl ?_
      have hcode : doneCode (outside 0 4095 x.toNat || outside 0 4095 y.toNat) =
          if x.toNat = min x.toNat 4095 ∧ y.toNat = min y.toNat 4095 then .ok else .clamped := by
        refine doneCode_eq ?_
        rw [Bool.or_eq_true, outside_iff, outside_iff, clampNat_zero, clampNat_zero, Classical.not_and_iff_not_or_not]
      rw [← hcode, ← clampNat_zero, ← clampNat_zero]
      rfl
    · exact exec_setCross (cmd := .crossPark) hready rfl rfl
  have hposted := setCross_posted ((s.advance dt).taken n) cross
  refine ⟨fun hsame => ?_, _, hexec, finished_posted hposted r, answered_of_offered hready rfl (hposted.unit n) r, fun hchange => ?_⟩
  · rw [hexec, setCross_of_same (s := (s.advance dt).taken n) hsame]
    refine congrArg Host.Outcome.next (finished_of_links hready ?_ r)
    rfl
  · rw [setCross_of_change (s := (s.advance dt).taken n) hchange]
    refine toldBoth_finished ?_ r
    rfl

/-! ## Mode, cancel, resume (R69, R95, R107) -/

/-- A lost attempt's notice changes the links and the flags, and LOST is counted (R118, R119). -/
theorem lostOutcome_eq (s : State) (reason : PickReason) :
    s.lostOutcome reason =
      { s with
        stats := s.stats.count .lost, links := (s.lostOutcome reason).links, flags := (s.lostOutcome reason).flags } := by
  have hpost := (post_posted s s.res.modeOwner (.pick (s.res.bareNotice .lost reason))).same
  exact congrArg (fun t : State => t.count .lost) hpost

/-- A cancelled attempt with the tip up, or with no release seen, leaves the attempt state alone to follow (R103). -/
theorem loseAttempt_of_rest (reason : PickReason) (hopen : s.res.attempt = .gathering ∨ s.res.attempt = .closing)
    (hrest : s.pen.tipDebounced = .up ∨ s.res.releaseSeen = false) :
    s.loseAttempt reason =
      { s with
        res := { s.res with tally := [], attempt := if s.pen.tipDebounced = .up then .idle else .held }
        stats := s.stats.count .lost
        links := (s.loseAttempt reason).links, flags := (s.loseAttempt reason).flags } := by
  have hlost := lostOutcome_eq s reason
  have hpen : (s.lostOutcome reason).pen = s.pen := by rw [hlost]
  have hres : (s.lostOutcome reason).res = s.res := by rw [hlost]
  rw [loseAttempt_of_open reason hopen]
  rcases htip : s.pen.tipDebounced with _ | _
  · have hafter : (s.lostOutcome reason).afterOutcome = (s.lostOutcome reason).endAttempt .idle :=
      afterOutcome_of_up ((congrArg Pen.tipDebounced hpen).trans htip)
    rw [hafter, if_pos rfl]
    exact congrArg (fun t : State => t.endAttempt .idle) hlost
  · have hseen : s.res.releaseSeen = false := hrest.resolve_left (fun h => nomatch htip.symm.trans h)
    have hafter : (s.lostOutcome reason).afterOutcome = (s.lostOutcome reason).endAttempt .held := by
      rw [afterOutcome_of_down ((congrArg Pen.tipDebounced hpen).trans htip), hres, hseen]
      rfl
    rw [hafter, if_neg (fun h => nomatch h)]
    exact congrArg (fun t : State => t.endAttempt .held) hlost

/-- With the tip down again after a release, a new attempt follows at once (R103). -/
theorem loseAttempt_of_again (reason : PickReason) (hopen : s.res.attempt = .gathering ∨ s.res.attempt = .closing)
    (htip : s.pen.tipDebounced = .down) (hseen : s.res.releaseSeen = true) (hmuted : s.pen.muted = false)
    (hm : s.port.mode ≠ .dark) :
    s.loseAttempt reason = ((s.lostOutcome reason).endAttempt .idle).setUpAttempt := by
  have hlost := lostOutcome_eq s reason
  have hpen : (s.lostOutcome reason).pen = s.pen := by rw [hlost]
  have hres : (s.lostOutcome reason).res = s.res := by rw [hlost]
  have hport : (s.lostOutcome reason).port = s.port := by rw [hlost]
  rw [loseAttempt_of_open reason hopen, afterOutcome_of_down ((congrArg Pen.tipDebounced hpen).trans htip), hres, if_pos hseen]
  refine tipDownIdle_of_lit ?_ ?_
  · exact (congrArg Pen.muted hpen).trans hmuted
  · exact fun h => hm ((congrArg Port.mode hport).symm.trans h)

/-- Nothing is left in the tally of an attempt that was lost. -/
theorem loseAttempt_tally (reason : PickReason) (hopen : s.res.attempt = .gathering ∨ s.res.attempt = .closing) :
    (s.loseAttempt reason).res.tally = [] := by
  rw [loseAttempt_of_open reason hopen]
  unfold State.afterOutcome
  split
  · rfl
  · split
    · unfold State.tipDownIdle
      split
      · rfl
      · dsimp only
        split
        · rfl
        · rfl
    · rfl

theorem setMode_eq (s : State) (m : PickMode) (owner : LinkSet) :
    s.setMode m owner = State.post { s with res := { s.res with mode := m, modeOwner := owner } } .both (.mode m owner) := rfl

theorem modeSetWork_of_none {mode : Byte} (s : State) (h : pickModeOf mode = none) :
    modeSetWork n mode s = (s, { mtype := 0x19, code := .range, values := [] }) := by
  unfold modeSetWork
  rw [h]

theorem modeSetWork_of_mode {mode : Byte} {m : PickMode} (s : State) (h : pickModeOf mode = some m) :
    modeSetWork n mode s = (s.setMode m (.single n), { mtype := 0x19, code := .ok, values := [] }) := by
  unfold modeSetWork
  rw [h]

theorem pickCancelWork_of_closed (h : s.res.attempt = .idle ∨ s.res.attempt = .held) :
    pickCancelWork s = (s, { mtype := 0x1A, code := .state, values := [] }) := by
  unfold pickCancelWork
  rcases h with h | h
  · rw [h]
  · rw [h]

theorem pickCancelWork_of_open (h : s.res.attempt = .gathering ∨ s.res.attempt = .closing) :
    pickCancelWork s = (s.loseAttempt .cancelled, { mtype := 0x1A, code := .ok, values := [] }) := by
  unfold pickCancelWork
  rcases h with h | h
  · rw [h]
  · rw [h]

/-- Settles O53: the mode told to both, the attempt lost and what follows it, and the pen that listens again. -/
theorem modeCancelAndResume : Obligations.ModeCancelAndResume := by
  rintro dt n s u rfl hready
  refine ⟨fun mode => ⟨fun hnone => ?_, fun m hmode => ?_⟩, fun hclosed => ?_, fun hopen => ?_, ?_⟩
  · exact congrArg Host.Outcome.next ((linkCommand_of_pair (c := .modeSet mode) (w := (_, _)) hready
      (congrArg repliedWith (modeSetWork_of_none _ hnone))).trans (taken_finished hready _))
  · have hw := congrArg repliedWith (modeSetWork_of_mode (n := n) ((s.advance dt).taken n) hmode)
    have hposted := post_posted { (s.advance dt).taken n with res := { (s.advance dt).res with mode := m, modeOwner := .single n } }
      .both (.mode m (.single n))
    refine ⟨_, congrArg Host.Outcome.next (linkCommand_of_pair (c := .modeSet mode) (w := (_, _)) hready hw),
      finished_posted hposted _, answered_of_offered hready rfl (hposted.unit n) _, ?_⟩
    rw [setMode_eq]
    refine toldBoth_finished ?_ _
    rfl
  · exact congrArg Host.Outcome.next ((linkCommand_of_pair (c := .pickCancel) (w := (_, _)) hready
      (congrArg repliedWith (pickCancelWork_of_closed hclosed))).trans (taken_finished hready _))
  · have hw := congrArg repliedWith (pickCancelWork_of_open (s := (s.advance dt).taken n) hopen)
    refine ⟨_, congrArg Host.Outcome.next (linkCommand_of_pair (c := .pickCancel) (w := (_, _)) hready hw),
      answered_of_offered hready rfl ((loseAttempt_resolved ((s.advance dt).taken n) .cancelled).unit n) _,
      (carriedOut_eq (s.advance dt) n (fun a => a.loseAttempt .cancelled) _).symm,
      loseAttempt_tally (s := (s.advance dt).taken n) .cancelled hopen, fun htip hseen hmuted hm => ?_, fun hrest => ?_⟩
    · have hagain := loseAttempt_of_again (s := (s.advance dt).taken n) .cancelled hopen htip hseen hmuted hm
      have hlost := lostOutcome_eq ((s.advance dt).taken n) .cancelled
      have hnumber := congrArg (fun t : State => t.res.number) hlost
      have hstats := congrArg State.stats hlost
      exact ⟨congrArg (fun t : State => t.res.attempt) hagain,
        (congrArg (fun t : State => t.res.number) hagain).trans (congrArg (· + 1) hnumber),
        congrArg (fun t : State => t.res.frames) hagain,
        (congrArg State.stats hagain).trans (congrArg (Stats.count · .attempts) hstats)⟩
    · exact finished_same (loseAttempt_of_rest (s := (s.advance dt).taken n) .cancelled hopen hrest) _
  · have hwork := linkCommand_of_pair (c := .penResume) (w := penResumeWork ((s.advance dt).taken n)) hready rfl
    refine congrArg Host.Outcome.next (hwork.trans (finished_of_links hready ?_ _))
    rfl

end Sys2Proof.Machine
end

section
/-! PROOFS. The settings commands (R19, R45, R74, R92, R120, R145, R155, R166, R180; O51): the values as stored, and the notice to the other
link. -/

namespace Sys2Proof.Machine

variable {s u v a b : State} {n : Link} {r : Reply}

theorem clampNat_byte_of_one (v : Byte) : clampNat 1 255 v.toNat = max 1 v.toNat := by
  have hlt := v.isLt
  rw [clampNat_eq (by omega), Nat.min_eq_left (by omega)]

theorem clampNat_word_of_one (v : Word) : clampNat 1 65535 v.toNat = max 1 v.toNat := by
  have hlt := v.isLt
  rw [clampNat_eq (by omega), Nat.min_eq_left (by omega)]

theorem clampNat_of_eq {lo hi v x : Nat} (h : lo ≤ hi) (hx : x = max lo (min v hi)) : clampNat lo hi v = x :=
  (clampNat_eq h v).trans hx.symm

theorem clampNat_of_zero {hi v x : Nat} (hx : x = min v hi) : clampNat 0 hi v = x := (clampNat_zero hi v).trans hx.symm

theorem wordBytes_toNat (w : Word) : wordBytes w.toNat = bytes16 w := congrArg bytes16 (BitVec.ofNat_toNat 16 w |>.trans (BitVec.setWidth_eq w))

/-! ## What a settings command leaves at its end -/

/-- A work that ends by posting the settings. -/
theorem postSettings_finished {group : SettingsGroup} {values : List Byte} (h : u.Ready n) (ha : a.links = (u.taken n).links)
    (r : Reply) :
    ((a.postSettings n group values).finished n r =
        { a with
          links := ((a.postSettings n group values).finished n r).links
          flags := ((a.postSettings n group values).finished n r).flags }) ∧
      answered u ((a.postSettings n group values).finished n r) n r ∧
        told u ((a.postSettings n group values).finished n r) (otherLink n) (.settings group values) := by
  have hposted : Posted a (a.postSettings n group values) := post_posted _ _ _
  exact ⟨finished_posted hposted r, answered_of_offered h ha (hposted.unit n) r, told_finished ha r⟩

theorem exec_settings {dt : Nat} {c : Instr} {cmd : LinkCmd} {w : State} (h : (s.advance dt).Ready n) (hc : c = linkInstr dt n cmd)
    (hw : commandWork n cmd ((s.advance dt).taken n) = repliedWith (w, r)) : exec c s = .next (w.finished n r) := by
  rw [hc, exec_linkInstr]
  exact congrArg Host.Outcome.next (linkCommand_of_pair (w := (w, r)) h hw)

/-- A settings command whose work stores its values and posts them. -/
theorem exec_stored {dt : Nat} {c : Instr} {cmd : LinkCmd} {group : SettingsGroup} {values : List Byte} 
    (hw : commandWork n cmd ((s.advance dt).taken n) = repliedWith (a.postSettings n group values, r)) (h : (s.advance dt).Ready n)
    (hc : c = linkInstr dt n cmd) (ha : a.links = ((s.advance dt).taken n).links) :
    ∃ t, exec c s = .next t ∧ t = { a with links := t.links, flags := t.flags } ∧ answered (s.advance dt) t n r ∧
      told (s.advance dt) t (otherLink n) (.settings group values) :=
  ⟨_, exec_settings h hc hw, postSettings_finished h ha r⟩

/-! ## Each command's work -/

theorem portParamsWork_eq (n : Link) (a : PortParamsArgs) (s : State) {h lw ta : Nat} (hh : h = max 2 (min a.h.toNat 16))
    (hlw : lw = min a.lw.toNat (h - 1)) (hta : ta = max 10 (min a.ta.toNat 1000)) :
    portParamsWork n a s =
      (State.postSettings
        { s with
          port :=
            { s.port with
              h := h, lw := lw, ta := ta, absence := 0
              hold := if h ≤ s.port.fifo.length then true else if s.port.fifo.length ≤ lw then false else s.port.hold } }
        n .portParams ([byteOf h, byteOf lw] ++ wordBytes ta),
        { mtype := 0x15, values := []
          code := if a.h.toNat = h ∧ a.lw.toNat = lw ∧ a.ta.toNat = ta then .ok else .clamped }) := by
  have hmark : (if h ≤ a.lw.toNat then h - 1 else a.lw.toNat) = lw := by
    rw [hlw]
    split <;> omega
  have hlow : h ≤ a.lw.toNat ↔ ¬ a.lw.toNat = lw := by omega
  have hcode : doneCode (outside 2 16 a.h.toNat || decide (h ≤ a.lw.toNat) || outside 10 1000 a.ta.toNat) =
      if a.h.toNat = h ∧ a.lw.toNat = lw ∧ a.ta.toNat = ta then .ok else .clamped := by
    refine doneCode_eq ?_
    rw [Bool.or_eq_true, Bool.or_eq_true, outside_iff, outside_iff, decide_eq_true_eq, clampNat_of_eq (by omega) hh,
      clampNat_of_eq (by omega) hta, hlow, Classical.not_and_iff_not_or_not, Classical.not_and_iff_not_or_not, or_assoc]
  unfold portParamsWork
  dsimp only
  rw [clampNat_of_eq (by omega) hh, clampNat_of_eq (by omega) hta, hcode, hmark]
  rfl

theorem crossParamsWork_eq (n : Link) (slew : Word) (k : Byte) (s : State) {v m : Nat} (hv : v = min slew.toNat 255)
    (hm : m = max 1 (min k.toNat 63)) :
    crossParamsWork n slew k s =
      (State.postSettings { s with cross := { s.cross with slew := v, k := m } } n .crossParams (wordBytes v ++ [byteOf m]),
        { mtype := 0x13, code := if slew.toNat = v ∧ k.toNat = m then .ok else .clamped, values := [] }) := by
  have hcode : doneCode (outside 0 255 slew.toNat || outside 1 63 k.toNat) =
      if slew.toNat = v ∧ k.toNat = m then .ok else .clamped := by
    refine doneCode_eq ?_
    rw [Bool.or_eq_true, outside_iff, outside_iff, clampNat_of_zero hv, clampNat_of_eq (by omega) hm, Classical.not_and_iff_not_or_not]
  unfold crossParamsWork
  dsimp only
  rw [clampNat_of_zero hv, clampNat_of_eq (by omega) hm, hcode]

theorem echoSetWork_of_none {e : Word} {style : Byte} (s : State) (h : echoStyleOf style = none) :
    echoSetWork n e style s = (s, { mtype := 0x08, code := .range, values := [] }) := by
  unfold echoSetWork
  rw [h]

theorem echoSetWork_of_style {e : Word} {style : Byte} {st : EchoStyle} {v : Nat} (s : State) (h : echoStyleOf style = some st)
    (hv : v = min e.toNat 255) :
    echoSetWork n e style s =
      (State.postSettings { s with dir := { s.dir with echoLength := v, echoStyle := st } } n .echoSet (wordBytes v ++ [style]),
        { mtype := 0x08, code := if e.toNat = v then .ok else .clamped, values := [] }) := by
  have hcode : doneCode (outside 0 255 e.toNat) = if e.toNat = v then .ok else .clamped := by
    refine doneCode_eq ?_
    rw [outside_iff, clampNat_of_zero hv]
  unfold echoSetWork
  rw [h]
  dsimp only
  rw [clampNat_of_zero hv, hcode]

theorem dwellSetWork_eq (n : Link) (dw : Byte) (s : State) {v : Nat} (hv : v = if dw.toNat = 0 then 0 else max 2 (min dw.toNat 60)) :
    dwellSetWork n dw s =
      (State.postSettings { s with menu := { s.menu with dw := v } } n .dwellSet [byteOf v],
        { mtype := 0x10, code := if dw.toNat = v then .ok else .clamped, values := [] }) := by
  have hzero : dw = 0 ↔ dw.toNat = 0 := BitVec.toNat_eq
  have hstored : (if dw = 0 then 0 else clampNat 2 60 dw.toNat) = v := by
    rw [hv, clampNat_eq (by omega)]
    exact ite_congr (propext hzero) (fun _ => rfl) (fun _ => rfl)
  have hcode : doneCode (v != dw.toNat) = if dw.toNat = v then .ok else .clamped := by
    refine doneCode_eq ?_
    rw [bne_iff_ne, ne_comm]
  unfold dwellSetWork
  dsimp only
  rw [hstored, hcode]

theorem snapSetWork_eq (n : Link) (a : SnapSetArgs) (s : State) :
    snapSetWork n a s =
      (State.postSettings { s with coord := { s.coord with px := a.px, py := a.py, gx := a.gx, gy := a.gy } } n .snapSet
          (bytes16 a.px ++ bytes16 a.py ++ bytes32 a.gx ++ bytes32 a.gy),
        { mtype := 0x1B, code := .ok, values := bytes16 a.px ++ bytes16 a.py ++ bytes32 a.gx ++ bytes32 a.gy }) := rfl

/-! ## A debounce time already run (R71, R72) -/

/-- The tip event of a debounced level that takes the raw one (R71). -/
def tipEvent : TipLevel → TipLevel → State → State
  | .up, .down => State.tipDown
  | .down, .up => State.tipUp
  | _, _ => id

theorem debounce_eq_tipEvent (s : State) :
    s.debounce =
      tipEvent s.pen.tipDebounced s.pen.tipRaw { s with pen := { s.pen with tipDebounced := s.pen.tipRaw, tipTimer := none } } := by
  unfold State.debounce
  rcases s.pen.tipDebounced with _ | _
  · rcases s.pen.tipRaw with _ | _
    · rfl
    · rfl
  · rcases s.pen.tipRaw with _ | _
    · rfl
    · rfl

theorem tipEvent_resolved (x y : TipLevel) (s : State) : Resolved s (tipEvent x y s) := by
  rcases x with _ | _
  · rcases y with _ | _
    · exact .refl s
    · exact tipDown_resolved s
  · rcases y with _ | _
    · exact tipUp_resolved s
    · exact .refl s

theorem debounce_offered (s : State) (m : Link) : (s.unit m).Offered (s.debounce.unit m) := by
  rw [debounce_eq_tipEvent]
  exact (tipEvent_resolved _ _ { s with pen := { s.pen with tipDebounced := s.pen.tipRaw, tipTimer := none } }).unit m

theorem recheckDebounce_of_run {e : Nat} (h : s.pen.tipTimer = some e) (hrun : s.pen.tb * Config.ticksPerMs ≤ e) :
    s.recheckDebounce = s.debounce := by
  unfold State.recheckDebounce
  rw [h]
  exact if_pos hrun

theorem recheckDebounce_of_short (h : ∀ e, s.pen.tipTimer = some e → e < s.pen.tb * Config.ticksPerMs) : s.recheckDebounce = s := by
  unfold State.recheckDebounce
  rcases htimer : s.pen.tipTimer with _ | e
  · rfl
  · exact if_neg (Nat.not_le.2 (h e htimer))

theorem recheckDebounce_offered (s : State) (m : Link) : (s.unit m).Offered (s.recheckDebounce.unit m) := by
  by_cases h : ∀ e, s.pen.tipTimer = some e → e < s.pen.tb * Config.ticksPerMs
  · rw [recheckDebounce_of_short h]
    exact .refl _
  · obtain ⟨e, he⟩ := Classical.not_forall.1 h
    obtain ⟨htimer, hlong⟩ := Classical.not_imp.1 he
    rw [recheckDebounce_of_run htimer (Nat.not_lt.1 hlong)]
    exact debounce_offered s m

/-! ## PEN_PARAMS and PICK_PARAMS (R72, R78) -/

/-- The pen parameters stored (R74). -/
def State.penStored (s : State) (wmin dd f tb : Nat) : State := { s with pen := { s.pen with wmin := wmin, dd := dd, f := f, tb := tb } }

/-- The pick parameters stored (R92). -/
def State.pickStored (s : State) (l w m v d : Nat) : State :=
  { s with corr := { s.corr with l := l, w := w }, res := { s.res with n := m, t := v, d := d } }

/-- The pen parameters stored, and another Tb tried on the debounce time already run (R72). -/
def State.penRechecked (s : State) (wmin dd f tb : Nat) : State :=
  if tb = s.pen.tb then s.penStored wmin dd f tb else (s.penStored wmin dd f tb).recheckDebounce

theorem penRechecked_offered (s : State) (wmin dd f tb : Nat) (m : Link) :
    (s.unit m).Offered ((s.penRechecked wmin dd f tb).unit m) := by
  unfold State.penRechecked
  split
  · exact .refl _
  · exact recheckDebounce_offered (s.penStored wmin dd f tb) m

theorem penRechecked_of_short (s : State) (wmin dd f tb : Nat)
    (h : tb = s.pen.tb ∨ ∀ e, s.pen.tipTimer = some e → e < tb * Config.ticksPerMs) :
    s.penRechecked wmin dd f tb = s.penStored wmin dd f tb := by
  unfold State.penRechecked
  split
  next => rfl
  next hother => exact recheckDebounce_of_short (h.resolve_left hother)

theorem penRechecked_of_run (s : State) (wmin dd f tb : Nat) {e : Nat} (hother : tb ≠ s.pen.tb) (htimer : s.pen.tipTimer = some e)
    (hrun : tb * Config.ticksPerMs ≤ e) : s.penRechecked wmin dd f tb = (s.penStored wmin dd f tb).debounce :=
  (if_neg hother).trans (recheckDebounce_of_run (s := s.penStored wmin dd f tb) htimer hrun)

theorem postSettings_pen (s : State) (group : SettingsGroup) (values : List Byte) : (s.postSettings n group values).pen = s.pen :=
  (post_posted s _ _).pen

/-- The parameters after the release test and its notice (R78). -/
theorem pickTested_params (s : State) (l w m v d : Nat) (group : SettingsGroup) (values : List Byte) :
    let t := (s.pickStored l w m v d).releaseTest.postSettings n group values
    (t.corr.l, t.corr.w, t.res.n, t.res.t, t.res.d) = (l, w, m, v, d) := by
  have htest := releaseTest_correlated (s.pickStored l w m v d)
  obtain ⟨hn, ht, hd⟩ := htest.params
  have hposted : Posted _ ((s.pickStored l w m v d).releaseTest.postSettings n group values) := post_posted _ _ _
  dsimp only
  rw [hposted.corr, hposted.res, htest.corr, hn, ht, hd]
  rfl

theorem pickParamsWork_eq (n : Link) (a : PickParamsArgs) (s : State) {l w m v : Nat} (hl : l = min a.l.toNat 255)
    (hw : w = min a.w.toNat 63) (hm : m = max 1 (min a.n.toNat 15)) (hv : v = max 1 a.t.toNat) :
    pickParamsWork n a s =
      ((s.pickStored l w m v a.d.toNat).releaseTest.postSettings n .pickParams (wordBytes l ++ [byteOf w, byteOf m] ++ wordBytes v ++ wordBytes a.d.toNat),
        { mtype := 0x18, values := []
          code := if a.l.toNat = l ∧ a.w.toNat = w ∧ a.n.toNat = m ∧ a.t.toNat = v then .ok else .clamped }) := by
  have hclamp : clampNat 1 65535 a.t.toNat = v := (clampNat_word_of_one _).trans hv.symm
  have hcode : doneCode (outside 0 255 a.l.toNat || outside 0 63 a.w.toNat || outside 1 15 a.n.toNat || outside 1 65535 a.t.toNat) =
      if a.l.toNat = l ∧ a.w.toNat = w ∧ a.n.toNat = m ∧ a.t.toNat = v then .ok else .clamped := by
    refine doneCode_eq ?_
    rw [Bool.or_eq_true, Bool.or_eq_true, Bool.or_eq_true, outside_iff, outside_iff, outside_iff, outside_iff, clampNat_of_zero hl,
      clampNat_of_zero hw, clampNat_of_eq (by omega) hm, hclamp, Classical.not_and_iff_not_or_not, Classical.not_and_iff_not_or_not, Classical.not_and_iff_not_or_not, or_assoc, or_assoc]
  unfold pickParamsWork
  dsimp only
  rw [clampNat_of_zero hl, clampNat_of_zero hw, clampNat_of_eq (by omega) hm, hclamp, hcode, wordBytes_toNat]
  rfl

theorem penParamsWork_eq (n : Link) (a : PenParamsArgs) (s : State) {wmin dd f tb : Nat} (hwmin : wmin = max 1 (min a.wmin.toNat 15))
    (hdd : dd = min a.dd.toNat 255) (hf : f = max 1 a.f.toNat) (htb : tb = max 1 (min a.tb.toNat 31)) :
    penParamsWork n a s =
      ((s.penRechecked wmin dd f tb).postSettings n .penParams ([byteOf wmin] ++ wordBytes dd ++ [byteOf f, byteOf tb]),
        { mtype := 0x16, values := []
          code := if a.wmin.toNat = wmin ∧ a.dd.toNat = dd ∧ a.f.toNat = f ∧ a.tb.toNat = tb then .ok else .clamped }) := by
  have hclamp : clampNat 1 255 a.f.toNat = f := (clampNat_byte_of_one _).trans hf.symm
  have hcode : doneCode (outside 1 15 a.wmin.toNat || outside 0 255 a.dd.toNat || outside 1 255 a.f.toNat || outside 1 31 a.tb.toNat) =
      if a.wmin.toNat = wmin ∧ a.dd.toNat = dd ∧ a.f.toNat = f ∧ a.tb.toNat = tb then .ok else .clamped := by
    refine doneCode_eq ?_
    rw [Bool.or_eq_true, Bool.or_eq_true, Bool.or_eq_true, outside_iff, outside_iff, outside_iff, outside_iff,
      clampNat_of_eq (by omega) hwmin, clampNat_of_zero hdd, hclamp, clampNat_of_eq (by omega) htb, Classical.not_and_iff_not_or_not, Classical.not_and_iff_not_or_not,
      Classical.not_and_iff_not_or_not, or_assoc, or_assoc]
  unfold penParamsWork
  dsimp only
  rw [clampNat_of_eq (by omega) hwmin, clampNat_of_zero hdd, hclamp, clampNat_of_eq (by omega) htb, hcode]
  rfl

/-- Settles O51, by each command's work and the notice that ends it. -/
theorem settingsAreStoredClamped : Obligations.SettingsAreStoredClamped := by
  rintro dt n s u rfl hready
  refine ⟨?_, ?_, ?_, ?_, ?_, ?_, ?_⟩
  · intro a h lw ta hh hlw hta
    have hwork := congrArg repliedWith (portParamsWork_eq n a ((s.advance dt).taken n) hh hlw hta)
    exact exec_stored (cmd := .portParams a) hwork hready rfl rfl
  · intro a wmin dd f tb r hwmin hdd hf htb hr
    subst hr
    have hwork := congrArg repliedWith (penParamsWork_eq n a ((s.advance dt).taken n) hwmin hdd hf htb)
    have hoffered := penRechecked_offered ((s.advance dt).taken n) wmin dd f tb n
    refine ⟨_, exec_settings (cmd := .penParams a) hready rfl hwork, ?_, fun hshort => ?_, fun e tip hother htimer hrun htip => ?_⟩
    · exact answered_of_offered (a := (s.advance dt).taken n) hready rfl (hoffered.trans ((post_posted _ _ _).unit n)) _
    · rw [penRechecked_of_short ((s.advance dt).taken n) wmin dd f tb hshort]
      obtain ⟨hframe, -, htold⟩ := postSettings_finished (a := ((s.advance dt).taken n).penStored wmin dd f tb) hready rfl _
      exact ⟨hframe, htold⟩
    · have hdebounce := penRechecked_of_run ((s.advance dt).taken n) wmin dd f tb hother htimer hrun
      have hevent : tip = tipEvent (s.advance dt).pen.tipDebounced (s.advance dt).pen.tipRaw := htip
      rw [hdebounce]
      refine ⟨?_, (postSettings_pen _ _ _).trans (debounce_pen _)⟩
      rw [debounce_eq_tipEvent, carriedOut_eq, hevent]
      rfl
  · intro a l w m v r hl hw hm hv hr
    subst hr
    have hwork := congrArg repliedWith (pickParamsWork_eq n a ((s.advance dt).taken n) hl hw hm hv)
    have hoffered := (releaseTest_correlated (((s.advance dt).taken n).pickStored l w m v a.d.toNat)).unit n
    refine ⟨_, exec_settings (cmd := .pickParams a) hready rfl hwork, ?_, ?_, ?_, fun hnil => ?_⟩
    · exact answered_of_offered (a := ((s.advance dt).taken n).pickStored l w m v a.d.toNat) hready rfl
        (hoffered.trans ((post_posted _ _ _).unit n)) _
    · refine Eq.trans ?_ (carriedOut_eq _ _ _ _).symm
      rfl
    · exact pickTested_params ((s.advance dt).taken n) l w m v a.d.toNat .pickParams _
    · rw [releaseTest_of_nil (s := ((s.advance dt).taken n).pickStored l w m v a.d.toNat) hnil]
      obtain ⟨hframe, -, htold⟩ := postSettings_finished (a := ((s.advance dt).taken n).pickStored l w m v a.d.toNat) hready rfl _
      exact ⟨hframe, htold⟩
  · intro slew k v m hv hm
    have hwork := congrArg repliedWith (crossParamsWork_eq n slew k ((s.advance dt).taken n) hv hm)
    exact exec_stored (cmd := .crossParams slew k) hwork hready rfl rfl
  · intro e style v hv
    refine ⟨fun hnone => ?_, fun st hstyle => ?_⟩
    · exact congrArg Host.Outcome.next ((linkCommand_of_pair (c := .echoSet e style) (w := (_, _)) hready
        (congrArg repliedWith (echoSetWork_of_none _ hnone))).trans (taken_finished hready _))
    · have hwork := congrArg repliedWith (echoSetWork_of_style (n := n) ((s.advance dt).taken n) hstyle hv)
      exact exec_stored (cmd := .echoSet e style) hwork hready rfl rfl
  · intro dw v hv
    have hwork := congrArg repliedWith (dwellSetWork_eq n dw ((s.advance dt).taken n) hv)
    exact exec_stored (cmd := .dwellSet dw) hwork hready rfl rfl
  · intro a
    have hwork := congrArg repliedWith (snapSetWork_eq n a ((s.advance dt).taken n))
    exact exec_stored (cmd := .snapSet a) hwork hready rfl rfl

end Sys2Proof.Machine
end

section
/-! PROOFS. NOTICE_MASK and FLAGS_CLEAR (R176, R179; O54): the issuer's mask and the condition notice for it alone, and the flags that
stand again while their states last. -/

namespace Sys2Proof.Machine

variable {s u v : State} {n : Link} {r : Reply}

/-! ## A link's mask -/

theorem and_condition_bit : ∀ mask : BitVec 7, (mask &&& 0b0001000#7 != 0) = mask.getLsbD 3 := by decide

theorem enables_condition (mask : BitVec 7) (flags : BitVec 11) : enables mask (.condition flags) = mask.getLsbD 3 :=
  and_condition_bit mask

/-- The state with another mask of a link (R176). -/
def State.masked (s : State) (n : Link) (mask : BitVec 7) : State := s.setUnit n { s.unit n with mask := mask }

theorem unit_masked_same (s : State) (n : Link) (mask : BitVec 7) : (s.masked n mask).unit n = { s.unit n with mask := mask } :=
  unit_setUnit_same s n _

theorem unit_masked_other (s : State) (n : Link) (mask : BitVec 7) : (s.masked n mask).unit (otherLink n) = s.unit (otherLink n) :=
  unit_setUnit_otherLink s n _

theorem masked_links (s : State) (n : Link) (mask : BitVec 7) : s.masked n mask = { s with links := (s.masked n mask).links } :=
  setUnit_links s n _

theorem masked_taken (u : State) (n : Link) (mask : BitVec 7) : (u.taken n).masked n mask = (u.masked n mask).taken n := by
  cases n <;> rfl

theorem ready_masked (h : u.Ready n) (mask : BitVec 7) : (u.masked n mask).Ready n := by
  have hunit := unit_masked_same u n mask
  exact ⟨(congrArg LinkUnit.slot hunit).trans h.slot, (congrArg LinkUnit.inbound hunit).trans h.inbound,
    (congrArg LinkUnit.busy hunit).trans h.notBusy⟩

theorem answered_masked {mask : BitVec 7} (h : answered (u.masked n mask) v n r) : answered u v n r := by
  unfold answered at h ⊢
  rw [unit_masked_same] at h
  exact h

/-! ## NOTICE_MASK (R176) -/

/-- Whether the issuer of a mask is told of the flags: CONDITION is new to it and a flag is set. -/
def tellsFlags (u : State) (n : Link) (mask : BitVec 7) : Bool :=
  mask.getLsbD 3 && !(u.unit n).mask.getLsbD 3 && u.flags != 0

/-- A mask taken, with the condition notice where it is due. -/
def State.maskTaken (s : State) (n : Link) (mask : BitVec 7) (tell : Bool) : State :=
  if tell then (s.masked n mask).post (.single n) (.condition s.flags) else s.masked n mask

theorem noticeMaskWork_of_range {classes : Byte} (s : State) (h : classes.getLsbD 7 = true) :
    noticeMaskWork n classes s = (s, { mtype := 0x1C, code := .range, values := [] }) := if_pos h

theorem noticeMaskWork_of_classes {classes : Byte} (s : State) (h : classes.getLsbD 7 = false) :
    noticeMaskWork n classes s =
      (s.maskTaken n (classes.extractLsb' 0 7) (tellsFlags s n (classes.extractLsb' 0 7)),
        { mtype := 0x1C, code := .ok, values := [(classes.extractLsb' 0 7).zeroExtend 8] }) := by
  unfold noticeMaskWork tellsFlags
  rw [if_neg (ne_true_of_eq_false h)]
  dsimp only
  rw [enables_condition, enables_condition]
  rfl

theorem tellsFlags_taken (u : State) (n : Link) (mask : BitVec 7) : tellsFlags (u.taken n) n mask = tellsFlags u n mask := by
  unfold tellsFlags
  rw [unit_taken_same]
  rfl

theorem maskTaken_posted (s : State) (n : Link) (mask : BitVec 7) (tell : Bool) :
    Posted (s.masked n mask) (s.maskTaken n mask tell) := by
  unfold State.maskTaken
  split
  · exact post_posted _ _ _
  · exact .refl _

theorem maskTaken_taken_posted (u : State) (n : Link) (mask : BitVec 7) (tell : Bool) :
    Posted ((u.masked n mask).taken n) ((u.taken n).maskTaken n mask tell) := by
  rw [← masked_taken]
  exact maskTaken_posted _ _ _ _

/-- The condition notice stands last in the issuer's queue, and nothing else is told (R175, R176). -/
theorem maskTaken_tells {mask : BitVec 7} (hmask : mask.getLsbD 3 = true)
    (hroom : (u.unit n).queue.length < Config.noticeQueueSize) (r : Reply) :
    let t := ((u.taken n).maskTaken n mask true).finished n r
    (t.unit n).queue = (u.unit n).queue ++ [{ notice := .condition u.flags, lossBefore := (u.unit n).lossMark }] ∧
      t.unit (otherLink n) = u.unit (otherLink n) ∧ t.flags = u.flags := by
  have hunit : ((u.taken n).masked n mask).unit n = { u.unit n with rx := .hunting, busy := true, mask := mask } := by
    rw [unit_masked_same, unit_taken_same]
  have hpost : (u.taken n).maskTaken n mask true = ((u.taken n).masked n mask).setUnit n
      ((((u.taken n).masked n mask).unit n).offer (.condition u.flags)).1 := by
    refine (if_pos rfl).trans (post_single_of_room ?_)
    rw [hunit]
    exact hroom
  dsimp only
  refine ⟨?_, ?_, ?_⟩
  · rw [queue_finished, hpost, unit_setUnit_same, hunit, queue_offer_of_busy (w := { u.unit n with rx := .hunting, busy := true, mask := mask }) rfl hroom, enables_condition, if_pos hmask]
  · rw [unit_finished_other, hpost, unit_setUnit_otherLink, unit_masked_other, unit_taken_other]
  · show ((u.taken n).maskTaken n mask true).flags = u.flags
    rw [hpost, setUnit_links, masked_links]
    rfl

/-! ## FLAGS_CLEAR (R179) -/

theorem high_flags_iff (flags : Word) : flags.extractLsb' 11 5 ≠ 0 ↔ 2048 ≤ flags.toNat := by
  have hlt := flags.isLt
  rw [Ne, BitVec.toNat_eq, BitVec.extractLsb'_toNat, Nat.shiftRight_eq_div_pow]
  show ¬ flags.toNat / 2 ^ 11 % 2 ^ 5 = 0 ↔ _
  omega

theorem ite_or_self (p : Prop) [Decidable p] (a x : BitVec 11) : (if p then a ||| x else a) = a ||| (if p then x else 0) := by
  by_cases h : p
  · rw [if_pos h, if_pos h]
  · rw [if_neg h, if_neg h]
    exact BitVec.or_zero.symm

theorem clearedFlags_eq (s : State) (named : BitVec 11) :
    s.clearedFlags named =
      (s.flags &&& ~~~named) ||| (if s.port.mode = .dark then 0b00000000100#11 else 0)
        ||| (if s.pen.muted then 0b00000010000#11 else 0) := by
  unfold State.clearedFlags withFlag
  dsimp only
  rw [ite_or_self, ite_or_self]
  rfl

theorem flagsClearWork_of_range {flags : Word} (s : State) (h : 2048 ≤ flags.toNat) :
    flagsClearWork flags s = (s, { mtype := 0x1D, code := .range, values := [] }) := if_pos ((high_flags_iff flags).2 h)

theorem flagsClearWork_of_flags {flags : Word} {kept : BitVec 11} (s : State) (h : flags.toNat < 2048)
    (hkept : kept = s.clearedFlags (flags.extractLsb' 0 11)) :
    flagsClearWork flags s =
      ({ s with flags := kept }, { mtype := 0x1D, code := .ok, values := bytes16 (kept.zeroExtend 16) }) := by
  subst hkept
  exact if_neg fun hhigh => absurd ((high_flags_iff flags).1 hhigh) (Nat.not_le.2 h)

/-- Settles O54: the mask's notice goes to its issuer alone, and the flags cleared are those that name no lasting state. -/
theorem maskAndFlagsCommands : Obligations.MaskAndFlagsCommands := by
  rintro dt n s u rfl hready
  refine ⟨fun classes mask r hmask hr => ⟨fun hrange => ?_, fun hclasses => ?_⟩, fun flags kept hkept => ⟨fun hrange => ?_, fun hflags => ?_⟩⟩
  · exact congrArg Host.Outcome.next ((linkCommand_of_pair (c := .noticeMask classes) (w := (_, _)) hready
      (congrArg repliedWith (noticeMaskWork_of_range _ hrange))).trans (taken_finished hready _))
  · subst hr hmask
    have hwork := congrArg repliedWith (noticeMaskWork_of_classes (n := n) ((s.advance dt).taken n) hclasses)
    rw [tellsFlags_taken] at hwork
    have hexec := exec_settings (c := .noticeMask dt n classes) (cmd := .noticeMask classes) hready rfl hwork
    generalize classes.extractLsb' 0 7 = mask at hexec
    have hmasked := ready_masked hready mask
    refine ⟨fun hsilent => ?_, ?_⟩
    · have hno : tellsFlags (s.advance dt) n mask = false := by
        unfold tellsFlags
        rcases hsilent with h | h | h
        · rw [h]
          rfl
        · rw [h, Bool.not_true, Bool.and_false]
          rfl
        · rw [h]
          exact Bool.and_false _
      rw [hexec, hno]
      refine congrArg Host.Outcome.next ((congrArg (State.finished · n _) (masked_taken _ n mask)).trans (taken_finished hmasked _))
    · have hposted := maskTaken_taken_posted (s.advance dt) n mask (tellsFlags (s.advance dt) n mask)
      refine ⟨_, hexec, answered_masked (answered_of_offered hmasked rfl (hposted.unit n) _), ?_, ?_, fun hnew hold hflags hroom => ?_⟩
      · rw [mask_finished, (hposted.unit n).mask, unit_taken_same, unit_masked_same]
      · have hframe := finished_posted (n := n) hposted { mtype := 0x1C, code := .ok, values := [mask.zeroExtend 8] }
        rw [masked_links] at hframe
        exact hframe
      · have htells : tellsFlags (s.advance dt) n mask = true := by
          unfold tellsFlags
          rw [hnew, hold]
          exact bne_iff_ne.2 hflags
        rw [htells]
        exact maskTaken_tells hnew hroom _
  · exact congrArg Host.Outcome.next ((linkCommand_of_pair (c := .flagsClear flags) (w := (_, _)) hready
      (congrArg repliedWith (flagsClearWork_of_range _ hrange))).trans (taken_finished hready _))
  · have hwork := congrArg repliedWith
      (flagsClearWork_of_flags ((s.advance dt).taken n) hflags (hkept.trans (clearedFlags_eq _ _).symm))
    rw [exec_settings (c := .flagsClear dt n flags) (cmd := .flagsClear flags) hready rfl hwork]
    refine congrArg Host.Outcome.next (finished_of_links hready ?_ _)
    rfl

end Sys2Proof.Machine
end

section
/-! PROOFS. LINK_RESET of a link (R42, R43, R96, R132, R184; O55): a queue with room to spare loses nothing, what the command forgets, and
the mode that reverts with it. -/

namespace Sys2Proof.Machine

variable {s u v : State} {n m : Link} {r : Reply} {x : Notice}

/-! ## A queue with room to spare (R175) -/

/-- A link whose loss mark is clear, and whose queue has a number of places to spare. -/
structure State.Spare (s : State) (m : Link) (k : Nat) : Prop where
  lossMark : (s.unit m).lossMark = false
  room : (s.unit m).queue.length + k ≤ Config.noticeQueueSize

theorem State.Spare.of_unit {t : State} {k : Nat} (h : s.Spare m k) (hu : t.unit m = s.unit m) : t.Spare m k := by
  obtain ⟨hlost, hroom⟩ := h
  rw [← hu] at hlost hroom
  exact ⟨hlost, hroom⟩

theorem State.Spare.mono {j k : Nat} (h : s.Spare m k) (hjk : j ≤ k) : s.Spare m j :=
  ⟨h.lossMark, Nat.le_trans (Nat.add_le_add_left hjk _) h.room⟩

theorem offer_lossMark {w : LinkUnit} (hl : w.lossMark = false) (hq : w.queue.length < Config.noticeQueueSize) :
    (w.offer x).1.lossMark = false := by
  cases he : enables w.mask x with
  | false =>
    rw [offer_of_masked he]
    exact hl
  | true =>
    rw [offer_of_room he hq]
    exact LinkUnit.kick_lossMark _

theorem offer_queue_length {w : LinkUnit} : (w.offer x).1.queue.length ≤ w.queue.length + 1 := by
  cases he : enables w.mask x with
  | false =>
    rw [offer_of_masked he]
    exact Nat.le_succ _
  | true =>
    by_cases hq : w.queue.length < Config.noticeQueueSize
    · rw [offer_of_room he hq]
      exact Nat.le_trans (LinkUnit.kick_queue_length _) (Nat.le_of_eq List.length_append)
    · rw [offer_of_full he (Nat.not_lt.1 hq)]
      exact Nat.le_succ _

theorem State.Spare.offerIf_same {k : Nat} (h : s.Spare m (k + 1)) (b : Bool) : (s.offerIf b m x).1.Spare m k := by
  cases b with
  | false => exact h.mono (Nat.le_succ k)
  | true =>
    obtain ⟨hlost, hroom⟩ := h
    have hunit : (s.offerIf true m x).1.unit m = ((s.unit m).offer x).1 := (unit_offerIf s true m m x).trans (if_pos ⟨rfl, rfl⟩)
    refine ⟨?_, ?_⟩
    · rw [hunit]
      exact offer_lossMark hlost (by omega)
    · have hlength := offer_queue_length (w := s.unit m) (x := x)
      rw [hunit]
      omega

theorem State.Spare.offerIf_other {k : Nat} (h : s.Spare m k) (b : Bool) (hne : m ≠ n) : (s.offerIf b n x).1.Spare m k :=
  h.of_unit ((unit_offerIf s b n m x).trans (if_neg fun hc => hne hc.2))

/-- One round takes one place. -/
theorem State.Spare.round {k : Nat} (h : s.Spare m (k + 1)) (b0 b1 : Bool) :
    ((s.offerIf b0 .link0 x).1.offerIf b1 .link1 x).1.Spare m k := by
  cases m with
  | link0 => exact (h.offerIf_same b0).offerIf_other b1 (fun hc => nomatch hc)
  | link1 => exact (h.offerIf_other (n := .link0) b0 (fun hc => nomatch hc)).offerIf_same b1

/-- The rounds that a post with this fuel can take at most. -/
def roundsOf : Nat → Nat
  | 0 => 1
  | k + 1 => 1 + 2 * roundsOf k

theorem State.Spare.setFlags {k : Nat} (h : s.Spare m k) (flags : BitVec 11) : State.Spare { s with flags := flags } m k :=
  h.of_unit (unit_of_links rfl m)

theorem State.Spare.postRounds (fuel : Nat) {targets : LinkSet} {k : Nat} (h : s.Spare m (k + roundsOf fuel)) :
    (State.postRounds fuel targets x s).Spare m k := by
  induction fuel generalizing targets x s k with
  | zero =>
    have hnote : ∀ {t : State} (j : Link) (dropped : Bool), t.Spare m k → (State.noteLoss 0 j dropped t).Spare m k := by
      intro t j dropped ht
      unfold State.noteLoss
      split
      · exact ht
      · exact ht.setFlags _
    rw [postRounds_eq]
    exact hnote _ _ (hnote _ _ (h.round _ _))
  | succ fuel ih =>
    have hnote : ∀ {t : State} {i : Nat} (j : Link) (dropped : Bool), t.Spare m (i + roundsOf fuel) →
        (State.noteLoss (fuel + 1) j dropped t).Spare m i := by
      intro t i j dropped ht
      unfold State.noteLoss
      split
      · exact ht.mono (Nat.le_add_right _ _)
      · exact ih (ht.setFlags _)
    have hround : s.Spare m ((k + roundsOf fuel + roundsOf fuel) + 1) := by
      refine h.mono ?_
      show k + roundsOf fuel + roundsOf fuel + 1 ≤ k + (1 + 2 * roundsOf fuel)
      omega
    rw [postRounds_eq]
    exact hnote _ _ (hnote _ _ (hround.round _ _))

/-- A post loses nothing where seven places are free. -/
theorem post_lossMark {targets : LinkSet} (h : s.Spare m 7) : ((s.post targets x).unit m).lossMark = false :=
  (State.Spare.postRounds 2 (k := 0) h).lossMark

/-! ## Any link's unit through a command (R173) -/

theorem otherLink_of_ne (h : m ≠ n) : m = otherLink n := by
  cases m with
  | link0 =>
    cases n with
    | link0 => exact absurd rfl h
    | link1 => rfl
  | link1 =>
    cases n with
    | link0 => rfl
    | link1 => exact absurd rfl h

/-- A unit's queue, loss mark and mask: what its own link's commands and notices change. -/
def LinkUnit.kept (w : LinkUnit) : List QueuedNotice × Bool × BitVec 7 := (w.queue, w.lossMark, w.mask)

theorem kept_finished (v : State) (n m : Link) (r : Reply) : ((v.finished n r).unit m).kept = (v.unit m).kept := by
  by_cases h : m = n
  · subst h
    unfold LinkUnit.kept
    rw [queue_finished, lossMark_finished, mask_finished]
  · rw [otherLink_of_ne h, unit_finished_other]

theorem kept_taken (u : State) (n m : Link) : ((u.taken n).unit m).kept = (u.unit m).kept := by
  by_cases h : m = n
  · subst h
    rw [unit_taken_same]
    rfl
  · rw [otherLink_of_ne h, unit_taken_other]

/-! ## What the command forgets (R42, R43, R132, R184) -/

/-- The filter list without a link's entries, an edit if there were any (R132). -/
def FilterList.without (f : FilterList) (m : Link) : FilterList :=
  { entries := f.entries.filter (fun e => e.author != m)
    editCount := if (f.entries.filter (fun e => e.author != m)).length = f.entries.length then f.editCount else f.editCount + 1 }

theorem dropFiltersOf_eq (s : State) (m : Link) : s.dropFiltersOf m = { s with filt := s.filt.without m } := by
  unfold State.dropFiltersOf FilterList.without
  dsimp only
  split
  next h =>
    rw [(List.filter_sublist).eq_of_length h]
  next => rfl

/-- The state with a link's unit flushed, its filter entries gone, and the directory's side taken from another state. -/
def State.forgotten (s : State) (m : Link) (b : State) : State :=
  { s.setUnit m (s.unit m).flushed with dir := b.dir, res := b.res, menu := b.menu, filt := s.filt.without m }

theorem forgotten_taken (u b : State) (n m : Link) : (u.taken n).forgotten m b = (u.forgotten m b).taken n := by
  cases n with
  | link0 => cases m <;> rfl
  | link1 => cases m <;> rfl

theorem forgotten_eq (u b : State) (m : Link) :
    u.forgotten m b =
      { u with dir := b.dir, res := b.res, menu := b.menu, filt := u.filt.without m, links := (u.forgotten m b).links } := by
  cases m <;> rfl

theorem unit_forgotten_same (u b : State) (m : Link) : (u.forgotten m b).unit m = (u.unit m).flushed := by
  cases m <;> rfl

theorem unit_forgotten_other (u b : State) (m : Link) : (u.forgotten m b).unit (otherLink m) = u.unit (otherLink m) := by
  cases m <;> rfl

theorem resetLinkDirectory_links (s : State) (l : LinkUnits) (m : Link) :
    State.resetLinkDirectory { s with links := l } m =
      { s with
        links := l
        dir := (s.resetLinkDirectory m).dir, res := (s.resetLinkDirectory m).res, menu := (s.resetLinkDirectory m).menu } := by
  unfold State.resetLinkDirectory
  dsimp only
  split
  · rfl
  · rfl

theorem resetLinkDirectory_of_lit (m : Link) (h : s.port.mode ≠ .dark) :
    s.resetLinkDirectory m =
      { s with
        dir :=
          { s.dir with
            changes := s.dir.changes.filter (fun c => c.issuer != m), sweeps := s.dir.sweeps.union (.single m) } } := if_neg h

theorem resetLinkDirectory_of_dark (m : Link) (h : s.port.mode = .dark) :
    s.resetLinkDirectory m =
      (State.applySweep
        { s with dir := { s.dir with changes := s.dir.changes.filter (fun c => c.issuer != m), withdrawn := [] } } m).handWithdrawn
        false := if_pos h

theorem resetLinkDirectory_res (s : State) (m : Link) :
    (s.resetLinkDirectory m).res =
      { s.res with tally := (s.resetLinkDirectory m).res.tally, withdrawn := (s.resetLinkDirectory m).res.withdrawn } := by
  by_cases h : s.port.mode = .dark
  · rw [resetLinkDirectory_of_dark m h]
    rfl
  · rw [resetLinkDirectory_of_lit m h]

theorem resetLinkDirectory_changes (s : State) (m : Link) :
    (s.resetLinkDirectory m).dir.changes = s.dir.changes.filter (fun c => c.issuer != m) := by
  by_cases h : s.port.mode = .dark
  · rw [resetLinkDirectory_of_dark m h]
    rfl
  · rw [resetLinkDirectory_of_lit m h]

theorem resetLink_eq (s : State) (m : Link) :
    s.resetLink m = (s.forgotten m (s.resetLinkDirectory m)).revertMode m := by
  unfold State.resetLink
  rw [setUnit_links, resetLinkDirectory_links, dropFiltersOf_eq]
  refine congrArg (State.revertMode · m) ?_
  exact (forgotten_eq s (s.resetLinkDirectory m) m).symm

/-! ## The mode that reverts (R96) -/

theorem revertMode_of_other (h : s.res.modeOwner ≠ .single m) : s.revertMode m = s := if_neg h

theorem revertMode_of_own (h : s.res.modeOwner = .single m) :
    s.revertMode m =
      State.post { s with res := { s.res with mode := .element, modeOwner := .both } } .both (.mode .element .both) := if_pos h

/-- The mode as a reset of a link leaves it, before the notice. -/
def State.modeReverted (s : State) (m : Link) : State :=
  if s.res.modeOwner = .single m then { s with res := { s.res with mode := .element, modeOwner := .both } } else s

theorem modeReverted_of_own (h : s.res.modeOwner = .single m) :
    s.modeReverted m = { s with res := { s.res with mode := .element, modeOwner := .both } } := if_pos h

theorem modeReverted_of_other (h : s.res.modeOwner ≠ .single m) : s.modeReverted m = s := if_neg h

theorem modeReverted_eq (s : State) (m : Link) :
    s.modeReverted m =
      { s with
        res := { s.res with mode := (s.modeReverted m).res.mode, modeOwner := (s.modeReverted m).res.modeOwner } } := by
  by_cases h : s.res.modeOwner = .single m
  · rw [modeReverted_of_own h]
  · rw [modeReverted_of_other h]

theorem modeReverted_res (s : State) (m : Link) :
    (s.modeReverted m).res =
      { s.res with mode := (s.modeReverted m).res.mode, modeOwner := (s.modeReverted m).res.modeOwner } :=
  (congrArg State.res (modeReverted_eq s m) :)

theorem unit_modeReverted (s : State) (m k : Link) : (s.modeReverted m).unit k = s.unit k :=
  unit_of_links (congrArg State.links (modeReverted_eq s m)) k

theorem taken_res (s : State) (n : Link) (res : Resolver) : { s.taken n with res := res } = State.taken { s with res := res } n := by
  cases n <;> rfl

theorem revertMode_posted (s : State) (n m : Link) : Posted ((s.modeReverted m).taken n) ((s.taken n).revertMode m) := by
  by_cases h : s.res.modeOwner = .single m
  · rw [modeReverted_of_own h, revertMode_of_own (s := s.taken n) h]
    rw [← taken_res]
    exact post_posted _ _ _
  · rw [modeReverted_of_other h, revertMode_of_other (s := s.taken n) h]
    exact .refl _

/-! ## The command (R184) -/

/-- What a LINK_RESET forgets of a link, before the mode reverts. -/
def State.linkForgotten (u : State) (m : Link) : State := u.forgotten m (u.resetLinkDirectory m)

theorem linkForgotten_res (u : State) (m : Link) : (u.linkForgotten m).res = (u.resetLinkDirectory m).res := rfl

theorem linkForgotten_modeOwner (u : State) (m : Link) : (u.linkForgotten m).res.modeOwner = u.res.modeOwner :=
  (congrArg Resolver.modeOwner (resetLinkDirectory_res u m) :)

theorem linkForgotten_modeReverted (u : State) (m : Link) :
    (u.linkForgotten m).modeReverted m =
      { u with
        dir := (u.resetLinkDirectory m).dir, menu := (u.resetLinkDirectory m).menu, filt := u.filt.without m
        res := ((u.linkForgotten m).modeReverted m).res, links := (u.linkForgotten m).links } := by
  by_cases h : (u.linkForgotten m).res.modeOwner = .single m
  · rw [modeReverted_of_own h]
    cases m <;> rfl
  · rw [modeReverted_of_other h]
    cases m <;> rfl

theorem resetLink_taken (u : State) (n m : Link) : (u.taken n).resetLink m = ((u.linkForgotten m).taken n).revertMode m := by
  have hdir : (u.taken n).resetLinkDirectory m = _ := resetLinkDirectory_links u (u.taken n).links m
  rw [resetLink_eq, hdir]
  refine congrArg (State.revertMode · m) ?_
  exact forgotten_taken u (u.resetLinkDirectory m) n m

theorem ready_linkForgotten (h : u.Ready n) (m : Link) : (u.linkForgotten m).Ready n := by
  cases n with
  | link0 => cases m <;> exact ⟨h.slot, h.inbound, h.notBusy⟩
  | link1 => cases m <;> exact ⟨h.slot, h.inbound, h.notBusy⟩

theorem ready_modeReverted (h : u.Ready n) (m : Link) : (u.modeReverted m).Ready n := by
  have hunit := unit_modeReverted u m n
  exact ⟨(congrArg LinkUnit.slot hunit).trans h.slot, (congrArg LinkUnit.inbound hunit).trans h.inbound,
    (congrArg LinkUnit.busy hunit).trans h.notBusy⟩

theorem tx_linkForgotten (u : State) (n m : Link) : ((u.linkForgotten m).unit n).tx = (u.unit n).tx := by
  cases n with
  | link0 => cases m <;> rfl
  | link1 => cases m <;> rfl

theorem answered_of_tx {t : State} (htx : (s.unit n).tx = (u.unit n).tx) (h : answered s t n r) : answered u t n r := by
  unfold answered at h ⊢
  rw [htx] at h
  exact h

/-- The state at the end of a LINK_RESET that link n issued and that names link m. -/
def State.linkResetDone (u : State) (n m : Link) (r : Reply) : State := (((u.linkForgotten m).taken n).revertMode m).finished n r

theorem linkResetDone_answered (h : u.Ready n) (m : Link) (r : Reply) : answered u (u.linkResetDone n m r) n r := by
  have hready := ready_modeReverted (ready_linkForgotten h m) m
  have htx : (((u.linkForgotten m).modeReverted m).unit n).tx = (u.unit n).tx := by
    rw [unit_modeReverted, tx_linkForgotten]
  exact answered_of_tx htx (answered_of_offered hready rfl ((revertMode_posted (u.linkForgotten m) n m).unit n) r)

theorem linkResetDone_eq (u : State) (n m : Link) (r : Reply) :
    u.linkResetDone n m r =
      { u with
        dir := (u.resetLinkDirectory m).dir, menu := (u.resetLinkDirectory m).menu, filt := u.filt.without m
        res := ((u.linkForgotten m).modeReverted m).res
        links := (u.linkResetDone n m r).links, flags := (u.linkResetDone n m r).flags } := by
  have hframe := finished_posted (n := n) (revertMode_posted (u.linkForgotten m) n m) r
  exact hframe.trans (congrArg (fun z : State =>
    { State.taken z n with links := (u.linkResetDone n m r).links, flags := (u.linkResetDone n m r).flags })
    (linkForgotten_modeReverted u m))

theorem kept_linkResetDone_of_other (u : State) (n : Link) (k : Link) (r : Reply) (h : u.res.modeOwner ≠ .single m) :
    ((u.linkResetDone n m r).unit k).kept = ((u.linkForgotten m).unit k).kept := by
  have hrest : ((u.linkForgotten m).taken n).revertMode m = (u.linkForgotten m).taken n :=
    revertMode_of_other (s := (u.linkForgotten m).taken n) (fun hc => h ((linkForgotten_modeOwner u m).symm.trans hc))
  unfold State.linkResetDone
  rw [hrest, kept_finished, kept_taken]

theorem mask_linkResetDone (u : State) (n m k : Link) (r : Reply) :
    ((u.linkResetDone n m r).unit k).mask = ((u.linkForgotten m).unit k).mask := by
  have hmask (a b : LinkUnit) (h : a.kept = b.kept) : a.mask = b.mask := congrArg (fun p => p.2.2) h
  have hposted := ((revertMode_posted (u.linkForgotten m) n m).unit k).mask
  rw [hmask _ _ (kept_taken ((u.linkForgotten m).modeReverted m) n k), unit_modeReverted] at hposted
  exact (hmask _ _ (kept_finished _ n k r)).trans hposted

theorem lossMark_linkResetDone (u : State) (n m : Link) (r : Reply) : ((u.linkResetDone n m r).unit m).lossMark = false := by
  have hlost (a b : LinkUnit) (h : a.kept = b.kept) : a.lossMark = b.lossMark := congrArg (fun p => p.2.1) h
  refine (hlost _ _ (kept_finished _ n m r)).trans ?_
  have hflushed : ((u.linkForgotten m).unit m).kept = ([], false, resetMask) :=
    congrArg LinkUnit.kept (unit_forgotten_same u (u.resetLinkDirectory m) m)
  by_cases h : (u.linkForgotten m).res.modeOwner = .single m
  · rw [revertMode_of_own (s := (u.linkForgotten m).taken n) h]
    refine post_lossMark ?_
    have hkept := (kept_taken (u.linkForgotten m) n m).trans hflushed
    refine State.Spare.of_unit (s := (u.linkForgotten m).taken n) ⟨congrArg (fun p => p.2.1) hkept, ?_⟩ (unit_of_links rfl m)
    have hqueue : (((u.linkForgotten m).taken n).unit m).queue = [] := congrArg (fun p => p.1) hkept
    rw [hqueue]
    decide
  · rw [revertMode_of_other (s := (u.linkForgotten m).taken n) h]
    exact congrArg (fun p => p.2.1) ((kept_taken (u.linkForgotten m) n m).trans hflushed)

theorem linkOf_of_number {byte : Byte} (h : byte.toNat = linkNumber m) : linkOf byte = some m := by
  cases m with
  | link0 => exact if_pos (BitVec.eq_of_toNat_eq h)
  | link1 =>
    have hbyte : byte = 1 := BitVec.eq_of_toNat_eq h
    subst hbyte
    rfl

theorem linkOf_of_outside {byte : Byte} (h : 2 ≤ byte.toNat) : linkOf byte = none := by
  have hzero : ¬ byte = 0 := fun hc => absurd h (by rw [hc]; decide)
  have hone : ¬ byte = 1 := fun hc => absurd h (by rw [hc]; decide)
  exact (if_neg hzero).trans (if_neg hone)

theorem linkResetWork_of_none {byte : Byte} (s : State) (h : linkOf byte = none) :
    linkResetWork byte s = (s, { mtype := 0x21, code := .range, values := [] }) := by
  unfold linkResetWork
  rw [h]

theorem linkResetWork_of_link {byte : Byte} (s : State) (h : linkOf byte = some m) :
    linkResetWork byte s = (s.resetLink m, { mtype := 0x21, code := .ok, values := [] }) := by
  unfold linkResetWork
  rw [h]

theorem exec_linkReset {dt : Nat} {byte : Byte} (h : (s.advance dt).Ready n) (hm : byte.toNat = linkNumber m) :
    exec (.linkReset dt n byte) s = .next ((s.advance dt).linkResetDone n m { mtype := 0x21, code := .ok, values := [] }) := by
  have hwork := congrArg repliedWith (linkResetWork_of_link ((s.advance dt).taken n) (linkOf_of_number hm))
  rw [exec_settings (c := .linkReset dt n byte) (cmd := .linkReset byte) h rfl hwork, resetLink_taken]
  rfl

theorem linkResetDone_of_other (r : Reply) (n : Link) (h : u.res.modeOwner ≠ .single m) :
    u.linkResetDone n m r = (((u.taken n).forgotten m (u.resetLinkDirectory m))).finished n r := by
  have howner : (u.linkForgotten m).res.modeOwner ≠ .single m := fun hc => h ((linkForgotten_modeOwner u m).symm.trans hc)
  rw [forgotten_taken]
  exact congrArg (State.finished · n r) (revertMode_of_other (s := (u.linkForgotten m).taken n) howner)

theorem linkResetDone_of_own (r : Reply) (n : Link) (h : u.res.modeOwner = .single m) :
    u.linkResetDone n m r =
      (State.post
        { (u.taken n).forgotten m (u.resetLinkDirectory m) with
          res := { (u.resetLinkDirectory m).res with mode := .element, modeOwner := .both } }
        .both (.mode .element .both)).finished n r := by
  have howner : (u.linkForgotten m).res.modeOwner = .single m := (linkForgotten_modeOwner u m).trans h
  rw [forgotten_taken]
  exact congrArg (State.finished · n r) (revertMode_of_own (s := (u.linkForgotten m).taken n) howner)

theorem toldBoth_of_units {t : State} (h : ∀ k, s.unit k = u.unit k) (hs : toldBoth s t n x) : toldBoth u t n x := by
  intro hroomy
  have htold := hs fun k => by rw [h]; exact hroomy k
  rw [h, h] at htold
  exact htold

theorem unit_linkForgotten (u : State) (m k : Link) : (u.linkForgotten m).unit k = (u.setUnit m (u.unit m).flushed).unit k :=
  unit_of_links (by cases m <;> rfl) k

/-- The other link and the issuer are told that the mode reverts (R96, R174). -/
theorem linkResetDone_tells (r : Reply) (n : Link) (h : u.res.modeOwner = .single m) :
    toldBoth (u.setUnit m (u.unit m).flushed) (u.linkResetDone n m r) n (.mode .element .both) := by
  rw [linkResetDone_of_own r n h, forgotten_taken]
  refine toldBoth_of_units (unit_linkForgotten u m) (toldBoth_finished ?_ r)
  rfl

/-- The fields named in a frame may be read off the state itself. -/
theorem frame_of_eq {t : State} {dir : Directory} {res : Resolver} {filt : FilterList} {menu : Menu} {links : LinkUnits}
    {flags : BitVec 11}
    (h : t = { u with dir := dir, menu := menu, filt := filt, res := res, links := links, flags := flags }) :
    t = { u with dir := t.dir, res := t.res, filt := t.filt, menu := t.menu, links := t.links, flags := t.flags } := by
  subst h
  rfl

/-- What a LINK_RESET leaves of the resolver but for the mode. -/
theorem linkForgotten_resolver (u : State) (m : Link) :
    ((u.linkForgotten m).modeReverted m).res.tally = (u.resetLinkDirectory m).res.tally ∧
      (((u.linkForgotten m).modeReverted m).res.attempt, ((u.linkForgotten m).modeReverted m).res.number,
          ((u.linkForgotten m).modeReverted m).res.frames, ((u.linkForgotten m).modeReverted m).res.n,
          ((u.linkForgotten m).modeReverted m).res.t, ((u.linkForgotten m).modeReverted m).res.d) =
        (u.res.attempt, u.res.number, u.res.frames, u.res.n, u.res.t, u.res.d) := by
  have hres := modeReverted_res (u.linkForgotten m) m
  refine ⟨(congrArg Resolver.tally hres :), ?_⟩
  rw [hres, linkForgotten_res, resetLinkDirectory_res]

/-- Settles O55, by the state at the end and what each unit keeps. -/
theorem linkResetForgetsOneLink : Obligations.LinkResetForgetsOneLink := by
  rintro dt n byte s u rfl hready
  refine ⟨fun hrange => ?_, fun m kept hm hkept => ?_⟩
  · exact congrArg Host.Outcome.next ((linkCommand_of_pair (c := .linkReset byte) (w := (_, _)) hready
      (congrArg repliedWith (linkResetWork_of_none _ (linkOf_of_outside hrange)))).trans (taken_finished hready _))
  have hexec := exec_linkReset hready hm
  generalize s.advance dt = u at hready hkept hexec ⊢
  generalize ({ mtype := 0x21, code := .ok, values := [] } : Reply) = reply at hexec ⊢
  have hframe := linkResetDone_eq u n m reply
  have hrest := linkForgotten_resolver u m
  subst hkept
  refine ⟨_, hexec, ?_, ?_, lossMark_linkResetDone u n m reply, ?_, fun hother => ?_, fun hlit => ?_, ?_, ?_, ?_,
    fun hlit => ?_, fun hdark => ?_, fun hown => ?_, fun hother => ?_, ?_, ?_⟩
  · exact linkResetDone_answered hready m reply
  · intro b flush work r hr hflush hlit hdark hwork
    have hb : b = u.resetLinkDirectory m := by
      by_cases h : u.port.mode = .dark
      · rw [hdark h, resetLinkDirectory_of_dark m h]
      · rw [hlit h, resetLinkDirectory_of_lit m h]
    subst hb hwork hflush hr
    refine ⟨fun hother => ?_, fun hown => ⟨?_, linkResetDone_tells _ n hown⟩⟩
    · rw [carriedOut_eq]
      exact linkResetDone_of_other _ n hother
    · rw [carriedOut_eq]
      exact linkResetDone_of_own _ n hown
  · rw [mask_linkResetDone]
    exact congrArg LinkUnit.mask (unit_forgotten_other u _ m)
  · have hunit := kept_linkResetDone_of_other (m := m) u n (otherLink m) reply hother
    have hstands := hunit.trans (congrArg LinkUnit.kept (unit_forgotten_other u _ m))
    exact ⟨congrArg (fun p => p.1) hstands, congrArg (fun p => p.2.1) hstands⟩
  · rw [hframe, resetLinkDirectory_of_lit m hlit]
    exact ⟨rfl, rfl⟩
  · rw [mask_linkResetDone]
    exact congrArg LinkUnit.mask (unit_forgotten_same u _ m)
  · rw [hframe]
    rfl
  · rw [hframe]
    exact resetLinkDirectory_changes u m
  · rw [hframe]
    refine ⟨?_, ?_, ?_, hrest.1.trans ?_⟩
    all_goals rw [resetLinkDirectory_of_lit m hlit]
  · rw [hframe, resetLinkDirectory_of_dark m hdark]
    exact ⟨rfl, rfl⟩
  · have hreverted := modeReverted_of_own ((linkForgotten_modeOwner u m).trans hown)
    rw [hframe]
    exact ⟨congrArg (fun z : State => z.res.mode) hreverted, congrArg (fun z : State => z.res.modeOwner) hreverted⟩
  · have hstands := modeReverted_of_other (fun hc => hother ((linkForgotten_modeOwner u m).symm.trans hc))
    have hres : (u.linkResetDone n m reply).res = (u.resetLinkDirectory m).res :=
      (congrArg State.res hframe :).trans (congrArg State.res hstands :)
    have hkept := (kept_linkResetDone_of_other u n m reply hother).trans (congrArg LinkUnit.kept (unit_forgotten_same u _ m))
    refine ⟨?_, ?_, congrArg (fun p => p.1) hkept, congrArg (fun p => p.2.1) hkept, ?_⟩
    · rw [hres, resetLinkDirectory_res]
    · rw [hres, resetLinkDirectory_res]
    · rw [linkResetDone_of_other reply n hother, forgotten_eq]
      rfl
  · exact frame_of_eq hframe
  · rw [hframe]
    exact hrest.2

end Sys2Proof.Machine
end
